-- ==== Sys2Proof/Word.lean ====
section
/-! DEFINITION. The words of the TSPC: 32-bit values, bytes, and the Timestamp pair (spec R7, R63). -/

namespace Sys2Proof

/-- A `u32` (R7): the width of every host-port register. -/
abbrev Word := BitVec 32

/-- One byte of the `WIRE` or `PBUF` window (R23, R24). -/
abbrev Byte := BitVec 8

/-- `Timestamp — {seconds: u32, fraction: u32}` (R7, R63). The fraction unit is 2^-32 s, so every pair of words is a
normal Timestamp. -/
structure Timestamp where
  sec  : Word
  frac : Word
  deriving DecidableEq, Repr, Inhabited

end Sys2Proof
end

