-- ==== Sys2Proof/Syntax.lean ====
section
/-! DEFINITION. The nine commands of the TSPC (spec R2, R48). -/

namespace Sys2Proof

/-- The commands, one constructor per row of the opcode map (R48). The command word carries no register number and no
immediate (R47), so no constructor has an argument: every operand is in the register or buffer R17 names. -/
inductive Instr where
  /-- `TS_NOW`, `now()`, R69. -/
  | tsNow
  /-- `TS_ENC`, `encodeForWire`, R70. -/
  | tsEnc
  /-- `TS_DEC`, `decodeFromWire`, R71. -/
  | tsDec
  /-- `FRAC2MS`, `fractionsToMillis`, R72. -/
  | frac2ms
  /-- `MS2FRAC`, `millisToFractions`, R73. -/
  | ms2frac
  /-- `SER_REQ`, `serializeRequest`, R80. -/
  | serReq
  /-- `DES_REQ`, `deserializeRequest`, R83. -/
  | desReq
  /-- `DES_RESP`, `deserializeResponse`, R85. -/
  | desResp
  /-- `SER_RESP`, the response build, R93. -/
  | serResp
  deriving DecidableEq, Repr, Inhabited

end Sys2Proof
end

