-- ==== Sys2Proof/Decode.lean ====
section
/-! DEFINITION. The command word: decoder and encoder (spec R45 to R49). A command is a 32-bit VALUE written to `CMD`;
it is not stored in bytes anywhere, so decoding starts from the value (R37, R45). -/

namespace Sys2Proof

/-- Why a word is no command (R49). Either way `FLAGS.ILLCMD` is set and nothing else happens. -/
inductive IllegalWord where
  /-- `w[31:8]` is not zero. -/
  | upperBitsNonzero
  /-- `w[31:8]` is zero and `w[7:0]` is an unused opcode: 0x00, 0x06 to 0x0F, 0x14 to 0xFF. -/
  | unusedOpcode
  deriving DecidableEq, Repr

/-- The field `zero`, bits 31 to 8 of the command word (R45). -/
def zeroField (w : Word) : BitVec 24 := w.extractLsb' 8 24

/-- The field `opcode`, bits 7 to 0 of the command word (R45). -/
def opcodeField (w : Word) : Byte := w.extractLsb' 0 8

/-- The opcode map read from number to command (R48). -/
def instrOfOpcode (op : Nat) : Option Instr :=
  match op with
  | 0x01 => some .tsNow
  | 0x02 => some .tsEnc
  | 0x03 => some .tsDec
  | 0x04 => some .frac2ms
  | 0x05 => some .ms2frac
  | 0x10 => some .serReq
  | 0x11 => some .desReq
  | 0x12 => some .desResp
  | 0x13 => some .serResp
  | _    => none

/-- Decode (R46): if `w[31:8] = 0` and `w[7:0]` is an opcode, the command of that opcode; otherwise the word is illegal
(R49). Reads nothing but `w`. -/
def decode (w : Word) : Except IllegalWord Instr :=
  if zeroField w = 0 then
    match instrOfOpcode (opcodeField w).toNat with
    | some i => .ok i
    | none   => .error .unusedOpcode
  else .error .upperBitsNonzero

/-- The opcode map read from command to number (R48); also what `LASTOP` holds after the command (R19). -/
def Instr.opcode (i : Instr) : Byte :=
  match i with
  | .tsNow   => 0x01
  | .tsEnc   => 0x02
  | .tsDec   => 0x03
  | .frac2ms => 0x04
  | .ms2frac => 0x05
  | .serReq  => 0x10
  | .desReq  => 0x11
  | .desResp => 0x12
  | .serResp => 0x13

/-- The command word of a command: 24 zero bits over the opcode (R45). -/
def encode (i : Instr) : Word := i.opcode.setWidth 32

/-- What the decoder reads from a command whose bits are `w`, bit 0 the least significant of the one 32-bit word. Bits
from `nbits` up are zero; a number that does not fit 32 bits is no command word. -/
def decodeTableWord (nbits w : Nat) : Option Instr :=
  let v := w % 2 ^ nbits
  if v < 2 ^ 32 then (decode (BitVec.ofNat 32 v)).toOption else none

end Sys2Proof
end

