-- ==== Sys2Proof/Machine/Status.lean ====
section
/-! DEFINITION. The status taxonomy and its codes (spec R58, R59). -/

namespace Sys2Proof.Machine

/-- The closed set of 18 statuses (R58), in the order of its list. The ones no command produces keep their place. -/
inductive Status where
  | success
  | badParameter
  | bufferTooSmall
  | invalidResponse
  | rejectedResponse
  | rejectedResponseChangeServer
  | rejectedResponseRetryWithBackoff
  | rejectedResponseOtherCode
  | zeroPollInterval
  | timeNotSupported
  | dnsFailure
  | networkFailure
  | serverNotAuthenticated
  | authFailure
  | sendTimeout
  | responseTimeout
  | noResponseReceived
  | contextNotInitialized
  deriving DecidableEq, Repr, Inhabited

/-- The code of a status, bits 4 to 0 of `STATUS` (R19, R58). -/
def Status.code (st : Status) : BitVec 5 :=
  match st with
  | .success                          => 0
  | .badParameter                     => 1
  | .bufferTooSmall                   => 2
  | .invalidResponse                  => 3
  | .rejectedResponse                 => 4
  | .rejectedResponseChangeServer     => 5
  | .rejectedResponseRetryWithBackoff => 6
  | .rejectedResponseOtherCode        => 7
  | .zeroPollInterval                 => 8
  | .timeNotSupported                 => 9
  | .dnsFailure                       => 10
  | .networkFailure                   => 11
  | .serverNotAuthenticated           => 12
  | .authFailure                      => 13
  | .sendTimeout                      => 14
  | .responseTimeout                  => 15
  | .noResponseReceived               => 16
  | .contextNotInitialized            => 17

/-- The status a kiss class gives (R22, R59): the one whose code is `4 + CLASS`. -/
def Status.ofKissClass (cls : BitVec 2) : Status :=
  match cls.toNat with
  | 0 => .rejectedResponse
  | 1 => .rejectedResponseChangeServer
  | 2 => .rejectedResponseRetryWithBackoff
  | _ => .rejectedResponseOtherCode

end Sys2Proof.Machine
end

