-- ==== Sys2Proof/Config.lean ====
section
/-! DEFINITION. What an implementation fixes (the parameter record of spec R6) and the free values of the model: the
buffer bytes after reset (R29) and the host clock samples (R26). -/

namespace Sys2Proof.Config

/-- The value of `KISS_N` on this hardware (R6, R21). It shapes the state, so it stands here; the record carries it as
`Params.kissN`. -/
abbrev kissN : Nat := 4

/-- The parameters of R6 as one record; its values for this hardware are `Sys2Proof.Machine.hw`. -/
structure Params where
  /-- `PKT_SIZE` -/
  pktSize : Nat
  /-- `OFF_LVM` -/
  offLvm : Nat
  /-- `OFF_STRATUM` -/
  offStratum : Nat
  /-- `OFF_REFID` -/
  offRefid : Nat
  /-- `OFF_ORIGIN` -/
  offOrigin : Nat
  /-- `OFF_RECEIVE` -/
  offReceive : Nat
  /-- `OFF_TRANSMIT` -/
  offTransmit : Nat
  /-- `FRAC_PER_SEC` -/
  fracPerSec : Nat
  /-- `FRAC_PER_MS`, written `K` -/
  fracPerMs : Nat
  /-- `EPOCH_OFFSET` -/
  epochOffset : Nat
  /-- `NOW_FAIL_STATUS` -/
  nowFailStatus : Machine.Status
  /-- `VERSION` -/
  version : Nat
  /-- `VERSION_SHIFT` -/
  versionShift : Nat
  /-- `MODE_CLIENT` -/
  modeClient : Nat
  /-- `MODE_SERVER` -/
  modeServer : Nat
  /-- `NO_KISS_CODE`; used by the host, never by a command (U15). -/
  noKissCode : Word
  /-- `KISS_N`, the number of kiss table entries. -/
  kissN : Nat
  /-- `CORR_BITS` -/
  corrBits : Nat
  deriving DecidableEq, Repr

/-- The constraint on the six offsets (R6, "order and widths of §6"): the fields follow one another in the order of R52, each
with the width R52 gives it (1, 1, 4, 8, 8, 8 bytes), none overlapping the next, all inside the frame. -/
def Params.layoutOk (p : Params) : Bool :=
  p.offLvm + 1 ≤ p.offStratum && p.offStratum + 1 ≤ p.offRefid && p.offRefid + 4 ≤ p.offOrigin
    && p.offOrigin + 8 ≤ p.offReceive && p.offReceive + 8 ≤ p.offTransmit && p.offTransmit + 8 ≤ p.pktSize

/-- The constraints of R6's table, row by row. That `NO_KISS_CODE` is a `u32` is its type. -/
def Params.valid (p : Params) : Bool :=
  p.pktSize = 48
    && p.layoutOk
    && p.fracPerSec = 2 ^ 32
    && (4294968 ≤ p.fracPerMs && p.fracPerMs ≤ 4299266)
    && p.epochOffset < 2 ^ 32
    && p.nowFailStatus ≠ .success
    && (p.version ≤ 7 && p.versionShift = 3)
    && (p.modeClient ≤ 7 && p.modeServer ≤ 7 && p.modeClient ≠ p.modeServer)
    && 1 ≤ p.kissN
    && p.corrBits = 16

/-- One sample of the host clock port (R26): `HT_OK`, `HT_SEC`, `HT_MS`. -/
structure ClockSample where
  ok  : Bool
  sec : Word
  ms  : Word
  deriving DecidableEq, Repr, Inhabited

/-- FREE VALUE (log entry 4): what a byte of `WIRE` or `PBUF` holds that nothing has written since reset (R29: "each byte
holds an arbitrary value, not necessarily the same after two resets"). Arguments: how many resets, the byte's port offset. -/
opaque freeByte : Nat → Nat → Byte

/-- FREE VALUE (log entry 3): the host clock sample a `TS_NOW` takes where nothing has stated it (R26, U6: drawn afresh at
each `TS_NOW`). Argument: how many samples were taken before. -/
opaque freeClock : Nat → ClockSample

end Sys2Proof.Config
end

