-- ==== Sys2Proof/Machine/Events.lean ====
section
/-! DEFINITION. What reaches the TSPC from outside: port accesses, the host clock port, the RESET input (spec R26, R27,
R30, R60, R62). -/

namespace Sys2Proof.Machine

/-- The widths R31 excludes: "There is no 16-bit access, no 64-bit access, no burst", and R32's "any other width". -/
inductive OddWidth where
  | half
  | double
  | burst
  | other
  deriving DecidableEq, Repr

/-- One host-port access: the four kinds of R30 as the triples of R62 name them, and the widths no rule allows. Offsets
are those of R38. -/
inductive Access where
  /-- `RD`: 32-bit register read. -/
  | r32 (off : Nat)
  /-- `WR`: 32-bit register write. -/
  | w32 (off : Nat) (v : Word)
  /-- `RB`: byte read. -/
  | r8 (off : Nat)
  /-- `WB`: byte write. -/
  | w8 (off : Nat) (b : Byte)
  /-- A read of a width R31 excludes. -/
  | oddRead (width : OddWidth) (off : Nat)
  /-- A write of a width R31 excludes. -/
  | oddWrite (width : OddWidth) (off : Nat)
  deriving DecidableEq, Repr

/-- What happens next at the boundary of the block. -/
inductive Event where
  /-- The host issues an access (R30). -/
  | access (a : Access)
  /-- Script line `HT`: what the clock port presents to the next `TS_NOW` (R26, R60). -/
  | ht (c : Config.ClockSample)
  /-- The RESET input is driven (R27): `true` asserts it, `false` releases it. -/
  | reset (asserted : Bool)
  deriving DecidableEq, Repr

end Sys2Proof.Machine
end

