-- ==== Sys2Proof/Machine/AddressMap.lean ====
section
/-! DEFINITION. The offset map of the host port (spec R38) and this hardware's parameter values (R6). -/

namespace Sys2Proof.Machine

/-- The parameter values of this hardware (R6, column "this hardware"; log entry 11). -/
def hw : Config.Params where
  pktSize := 48
  offLvm := 0
  offStratum := 1
  offRefid := 12
  offOrigin := 24
  offReceive := 32
  offTransmit := 40
  fracPerSec := 4294967296
  fracPerMs := 4295000
  epochOffset := 2208988800
  nowFailStatus := .timeNotSupported
  version := 4
  versionShift := 3
  modeClient := 3
  modeServer := 4
  noKissCode := 0
  kissN := Config.kissN
  corrBits := 16

/-- The registers of the host port, by name (R38). -/
inductive Reg where
  | cmd
  | status
  | lastop
  | flags
  | opaSec
  | opaFrac
  | opbSec
  | opbFrac
  | opcSec
  | opcFrac
  | opw
  | opx
  | len
  | resSec
  | resFrac
  | resW
  | pLvm
  | pStratum
  | pRefid
  | pOrgSec
  | pOrgFrac
  | pRcvSec
  | pRcvFrac
  | pXmtSec
  | pXmtFrac
  | offsetMsLo
  | offsetMsHi
  | delayMsLo
  | delayMsHi
  | kissCode (i : Fin Config.kissN)
  | kissCtl (i : Fin Config.kissN)
  deriving DecidableEq, Repr

/-- R38's rows: command, status group, operands. -/
def operandRows : List (Nat × Reg) :=
  [(0x000, .cmd), (0x004, .status), (0x008, .lastop), (0x00C, .flags),
   (0x010, .opaSec), (0x014, .opaFrac), (0x018, .opbSec), (0x01C, .opbFrac), (0x020, .opcSec), (0x024, .opcFrac),
   (0x028, .opw), (0x02C, .opx), (0x030, .len)]

/-- R38's rows: the result registers of R14. -/
def resultRows : List (Nat × Reg) :=
  [(0x040, .resSec), (0x044, .resFrac), (0x048, .resW),
   (0x050, .pLvm), (0x054, .pStratum), (0x058, .pRefid), (0x05C, .pOrgSec), (0x060, .pOrgFrac),
   (0x064, .pRcvSec), (0x068, .pRcvFrac), (0x06C, .pXmtSec), (0x070, .pXmtFrac),
   (0x078, .offsetMsLo), (0x07C, .offsetMsHi), (0x080, .delayMsLo), (0x084, .delayMsHi)]

/-- R38's rows `0x0A0 + 8i` and `0x0A4 + 8i`: the kiss table. -/
def kissRows : List (Nat × Reg) :=
  [(0x0A0, .kissCode 0), (0x0A4, .kissCtl 0), (0x0A8, .kissCode 1), (0x0AC, .kissCtl 1),
   (0x0B0, .kissCode 2), (0x0B4, .kissCtl 2), (0x0B8, .kissCode 3), (0x0BC, .kissCtl 3)]

/-- Every register of R38 with its offset. -/
def registerMap : List (Nat × Reg) := operandRows ++ resultRows ++ kissRows

/-- The register at a port offset, if R38 lists one there. -/
def regAt (off : Nat) : Option Reg := registerMap.lookup off

/-- Offset of `WIRE[0]` (R38). -/
def wireBase : Nat := 0x0C0

/-- Bytes of `WIRE` (R24). -/
def wireSize : Nat := 8

/-- Offset of `PBUF[0]` (R38). -/
def pbufBase : Nat := 0x100

/-- Whether an offset lies in the `WIRE` window or the `PBUF` window (R31, R38). -/
def byteMapped (off : Nat) : Bool :=
  (wireBase ≤ off && off < wireBase + wireSize) || (pbufBase ≤ off && off < pbufBase + hw.pktSize)

end Sys2Proof.Machine
end

