-- ==== Sys2Proof/Machine/State.lean ====
section
/-! DEFINITION. The state of the TSPC (spec R10 to R29), what a step can answer besides a next state, and the state right
after reset (R29). -/

namespace Sys2Proof.Machine

/-- The fields a deserialise command extracts, held in the `P_*` registers (R15). -/
structure Frame where
  lvm     : Byte
  stratum : Byte
  refid   : Word
  org     : Timestamp
  rcv     : Timestamp
  xmt     : Timestamp
  deriving DecidableEq, Repr, Inhabited

/-- One kiss table entry (R21, R22): `KISS_CODE[i]`, and the two fields of `KISS_CTL[i]` that exist. -/
structure KissEntry where
  code  : Word
  valid : Bool
  cls   : BitVec 2
  deriving DecidableEq, Repr, Inhabited

/-- The byte windows `WIRE` and `PBUF` (R23, R24), keyed by port offset (R38): the bytes written since reset, offsets
strictly rising. An unlisted byte has no value here; reading it gives a free value (log entries 4, 7). -/
abbrev Memory := List Host.Cell

/-- The whole state (R10). The last six fields are the environment of the block: its inputs and the model's own
bookkeeping (log entries 1, 3 to 6). -/
structure State where
  /-- `OPA` (R11) -/
  opa : Timestamp
  /-- `OPB` (R11) -/
  opb : Timestamp
  /-- `OPC` (R11) -/
  opc : Timestamp
  /-- `OPW` (R12) -/
  opw : Word
  /-- `OPX` (R12) -/
  opx : Word
  /-- `LEN` (R12) -/
  len : Word
  /-- `RES` (R14) -/
  res : Timestamp
  /-- `RES_W` (R14) -/
  resW : Word
  /-- `P_LVM`, `P_STRATUM`, `P_REFID`, `P_ORG`, `P_RCV`, `P_XMT` (R15) -/
  p : Frame
  /-- `OFFSET_MS` (R16) -/
  offsetMs : BitVec 64
  /-- `DELAY_MS` (R16) -/
  delayMs : BitVec 64
  /-- `STATUS` (R19) -/
  status : Status
  /-- `LASTOP` (R19) -/
  lastop : Byte
  /-- `FLAGS.ILLCMD` (R20) -/
  illcmd : Bool
  /-- `FLAGS.ACCERR` (R20) -/
  accerr : Bool
  /-- The kiss table (R21) -/
  kiss : Vector KissEntry Config.kissN
  /-- `WIRE` and `PBUF` (R23, R24) -/
  mem : Memory
  /-- The `RESET` input (R27): true while it is asserted. -/
  resetPin : Bool
  /-- The host clock port (R26): the sample an `HT` line has stated for the next `TS_NOW`, if one has. -/
  ht : Option Config.ClockSample
  /-- The model's own: the accesses and inputs still to come, first one first (log entry 1). -/
  script : List Event
  /-- The model's own: the value the latest read access returned (R30, log entry 5). -/
  rdata : Word
  /-- The model's own: how many `TS_NOW` samples were taken, the index of `Config.freeClock` (log entry 3). -/
  clkReads : Nat
  /-- The model's own: how many times RESET was released, the index of `Config.freeByte` (log entry 4). -/
  resets : Nat
  deriving DecidableEq, Repr

/-- Reasons the machine stops. There is none: "returned - never thrown" (R110), "stuck or hang: impossible" (R124).
Nobody can raise one (log entry 10: exact, neither safe nor unsafe). -/
inductive Fault where
  deriving DecidableEq, Repr

/-- Reasons the model gives no meaning. -/
inductive Refusal where
  /-- Raised by an arm of exec whose command has no meaning yet; no arm is in that case. Safe: the model stops. -/
  | notModelled (mnemonic : String)
  deriving DecidableEq, Repr

/-- The state after RESET is released (R29): every register 0, every kiss entry invalid, `LASTOP` 0, `FLAGS` 0, no byte of
`WIRE` or `PBUF` written. Nothing is queued: nothing runs by itself (R127). -/
def State.reset : State where
  opa := ⟨0, 0⟩
  opb := ⟨0, 0⟩
  opc := ⟨0, 0⟩
  opw := 0
  opx := 0
  len := 0
  res := ⟨0, 0⟩
  resW := 0
  p := ⟨0, 0, 0, ⟨0, 0⟩, ⟨0, 0⟩, ⟨0, 0⟩⟩
  offsetMs := 0
  delayMs := 0
  status := .success
  lastop := 0
  illcmd := false
  accerr := false
  kiss := Vector.replicate Config.kissN ⟨0, false, 0⟩
  mem := []
  resetPin := false
  ht := none
  script := []
  rdata := 0
  clkReads := 0
  resets := 0

end Sys2Proof.Machine
end

