-- ==== Sys2Proof/Machine/Ops.lean ====
section
/-! DEFINITION. The named operations over the byte windows and the registers (spec R36, R14, R26, R27), and the byte order
of the frame (R35). The TSPC takes no exception and returns from none (R110, R118, R121); what every command does at its
end instead is `State.finish` in Flags.lean (R111). -/

namespace Sys2Proof.Machine

/-! ### The list of written bytes -/

/-- The value written at an offset, if one was. -/
def Memory.find (m : Memory) (a : Nat) : Option Byte :=
  match m with
  | []          => none
  | (k, b) :: t => if a = k then some b else Memory.find t a

/-- Write one byte, keeping the offsets rising. -/
def Memory.put (m : Memory) (a : Nat) (b : Byte) : Memory :=
  match m with
  | []          => [(a, b)]
  | (k, c) :: t =>
    if a < k then (a, b) :: (k, c) :: t
    else if a = k then (a, b) :: t
    else (k, c) :: Memory.put t a b

/-- Write the bytes of a list at `a`, `a + 1`, ... -/
def Memory.putAll (m : Memory) (a : Nat) (bs : List Byte) : Memory :=
  match bs with
  | []      => m
  | b :: bs => Memory.putAll (Memory.put m a b) (a + 1) bs

/-- Every offset of the list is above `lo`, and they rise. -/
def Memory.risingAbove (lo : Nat) (m : Memory) : Bool :=
  match m with
  | []          => true
  | (k, _) :: t => lo < k && Memory.risingAbove k t

/-- The canonical form (log entry 7): offsets strictly rising, each in a byte window. An unlisted byte has no value of its
own, so no entry can equal what an unlisted offset holds. -/
def Memory.wf (m : Memory) : Bool :=
  (match m with
   | []          => true
   | (k, _) :: t => Memory.risingAbove k t)
  && m.all (fun c => byteMapped c.1)

/-! ### Byte order (R35, R36) -/

/-- The four bytes of a word in wire order, most significant first (R36, R53). -/
def wireBytes (v : Word) : List Byte :=
  [v.extractLsb' 24 8, v.extractLsb' 16 8, v.extractLsb' 8 8, v.extractLsb' 0 8]

/-- The word whose wire order is these four bytes (R36): `b0*2^24 + b1*2^16 + b2*2^8 + b3`. -/
def ofWire (b0 b1 b2 b3 : Byte) : Word := b0 ++ b1 ++ b2 ++ b3

/-! ### Updates of the state -/

/-- Replace the byte windows. -/
def State.setMem (s : State) (m : Memory) : State := { s with mem := m }

/-- Write `RES` (R14). -/
def State.setRes (s : State) (t : Timestamp) : State := { s with res := t }

/-- Write `RES_W` (R14). -/
def State.setResW (s : State) (v : Word) : State := { s with resW := v }

/-- Write all nine `P_*` registers (R15, R82). -/
def State.setFrame (s : State) (f : Frame) : State := { s with p := f }

/-- Write `OFFSET_MS` and `DELAY_MS` (R16). -/
def State.setOffsetDelay (s : State) (off dly : BitVec 64) : State := { s with offsetMs := off, delayMs := dly }

/-- Hand the value read to the host (R30). -/
def State.reply (s : State) (v : Word) : State := { s with rdata := v }

/-- Replace what is still to come. -/
def State.setScript (s : State) (es : List Event) : State := { s with script := es }

/-- State what the clock port presents to the next `TS_NOW` (R60). -/
def State.presentClock (s : State) (c : Config.ClockSample) : State := { s with ht := some c }

/-- What a `TS_NOW` issued now samples (R26): the stated sample, else a free value (log entry 3). -/
def State.clockSample (s : State) : Config.ClockSample :=
  match s.ht with
  | some c => c
  | none   => Config.freeClock s.clkReads

/-- The port has been sampled once (R26): the next `TS_NOW` takes a sample of its own (U6). -/
def State.clockTaken (s : State) : State := { s with ht := none, clkReads := s.clkReads + 1 }

/-- Assert the RESET input (R27). The state is that of R29 only once it is released. -/
def State.assertReset (s : State) : State := { s with resetPin := true }

/-- Release the RESET input (R27, R125): the state of R29, its buffer bytes unspecified anew. What is to come, the clock
port and the host's last read value are outside the block and stay. -/
def State.releaseReset (s : State) : State :=
  { State.reset with
    ht := s.ht, script := s.script, rdata := s.rdata, clkReads := s.clkReads, resets := s.resets + 1 }

/-! ### Bytes, words, Timestamps -/

/-- The byte at a port offset; one nothing has written since reset is a free value (R29, R124, log entry 4). -/
def State.byteAt (s : State) (a : Nat) : Byte := (Memory.find s.mem a).getD (Config.freeByte s.resets a)

/-- Write bytes at port offsets `a`, `a + 1`, ... -/
def State.putBytes (s : State) (a : Nat) (bs : List Byte) : State := s.setMem (Memory.putAll s.mem a bs)

/-- The word in wire order at port offset `a`. -/
def State.wordAt (s : State) (a : Nat) : Word :=
  ofWire (s.byteAt a) (s.byteAt (a + 1)) (s.byteAt (a + 2)) (s.byteAt (a + 3))

/-- The Timestamp in wire order at port offset `a`: seconds, then fraction (R53). -/
def State.tsAt (s : State) (a : Nat) : Timestamp := ⟨s.wordAt a, s.wordAt (a + 4)⟩

/-- Write a Timestamp in wire order at port offset `a` (R53). -/
def State.putTs (s : State) (a : Nat) (t : Timestamp) : State := s.putBytes a (wireBytes t.sec ++ wireBytes t.frac)

/-- `MemRead(off, 1)` (R36). -/
def State.memRead1 (s : State) (off : Nat) : Byte := s.byteAt (pbufBase + off)

/-- `MemRead(off, 4)` (R36). -/
def State.memRead4 (s : State) (off : Nat) : Word := s.wordAt (pbufBase + off)

/-- `MemWrite(off, 1, v)` (R36). -/
def State.memWrite1 (s : State) (off : Nat) (b : Byte) : State := s.putBytes (pbufBase + off) [b]

/-- `MemWrite(off, 4, v)` (R36). -/
def State.memWrite4 (s : State) (off : Nat) (v : Word) : State := s.putBytes (pbufBase + off) (wireBytes v)

/-- `TsRead(off)` (R36). -/
def State.tsRead (s : State) (off : Nat) : Timestamp := s.tsAt (pbufBase + off)

/-- `TsWrite(off, t)` (R36). -/
def State.tsWrite (s : State) (off : Nat) (t : Timestamp) : State := s.putTs (pbufBase + off) t

/-- `for i in 0 .. PKT_SIZE-1: PBUF[i] <- 0` (R80, R93). -/
def State.clearFrame (s : State) : State := s.putBytes pbufBase (List.replicate hw.pktSize 0)

end Sys2Proof.Machine
end

