-- ==== Sys2Proof/Machine/Flags.lean ====
section
/-! DEFINITION. `STATUS`, `LASTOP` and `FLAGS`: who writes them and how they read (spec R19, R20, R49, R32, R111). -/

namespace Sys2Proof.Machine

/-- `return S`, the end of every legal command (R111): `STATUS <- code(S)`, `LASTOP <- opcode`, nothing else. -/
def State.finish (s : State) (i : Instr) (st : Status) : State := { s with status := st, lastop := i.opcode }

/-- Set the sticky bit `FLAGS.ILLCMD` (R20, R49). -/
def State.flagIllCmd (s : State) : State := { s with illcmd := true }

/-- Set the sticky bit `FLAGS.ACCERR` (R20, R32). -/
def State.flagAccErr (s : State) : State := { s with accerr := true }

/-- `STATUS` as read: the code in bits 4 to 0, bits 31 to 5 zero (R19). -/
def statusWord (st : Status) : Word := st.code.setWidth 32

/-- `FLAGS` as read: `ILLCMD` in bit 0, `ACCERR` in bit 1, bits 31 to 2 zero (R20). -/
def flagsWord (illcmd accerr : Bool) : Word :=
  (BitVec.ofBool accerr ++ BitVec.ofBool illcmd).setWidth 32

/-- `KISS_CTL[i]` as read: `VALID` in bit 31, `CLASS` in bits 1 to 0, bits 30 to 2 zero (R22). -/
def kissCtlWord (e : KissEntry) : Word := BitVec.ofBool e.valid ++ (0 : BitVec 29) ++ e.cls

/-- A write to `KISS_CTL[i]`: bits 30 to 2 of the value are ignored (R22, R33). -/
def KissEntry.setCtl (e : KissEntry) (v : Word) : KissEntry :=
  { e with valid := v.getLsbD 31, cls := v.extractLsb' 0 2 }

end Sys2Proof.Machine
end

