-- ==== Sys2Proof/Machine/Operands.lean ====
section
/-! DEFINITION. The arithmetic and the operand forms of the commands (spec R54, R63 to R68, R79, R82, R87 to R92). -/

namespace Sys2Proof.Machine

/-! ### Arithmetic (R8, R64 to R68) -/

/-- `sres32(x)`, the signed minimal residue modulo 2^32 (R8, R65); a residue of exactly 2^31 gives −2^31 (D31). -/
def sres32 (x : Int) : Int :=
  let r := x % 4294967296
  if r < 2147483648 then r else r - 4294967296

/-- `tquot(a, b)`, the quotient truncated toward zero (R8, R66). -/
def tquot (a b : Int) : Int := if 0 ≤ a then a / b else -((-a) / b)

/-- `i64(x)`, 64-bit two's complement (R8); every use fits (R90). -/
def i64 (x : Int) : BitVec 64 := BitVec.ofInt 64 x

/-- `frac_to_ms(f) = floor(f / K)` (R67). -/
def fracToMs (k : Nat) (f : Word) : Word := BitVec.ofNat 32 (f.toNat / k)

/-- `ms_to_frac(m) = m * K` (R67). It has that value for `m < 1000` only; no command uses it elsewhere. -/
def msToFrac (k : Nat) (m : Word) : Word := BitVec.ofNat 32 (m.toNat * k)

/-- A millisecond count that has a fraction (R67). -/
def millisOk (m : Word) : Bool := m.toNat < 1000

/-- `u32(sec + EPOCH_OFFSET)`: host seconds to protocol seconds, modulo 2^32 (R64, R69). -/
def toProtocolSeconds (sec : Word) : Word := BitVec.ofNat 32 (sec.toNat + hw.epochOffset)

/-- `sres32(a - b)` of two seconds values (R65). -/
def secDiff (a b : Word) : Int := sres32 ((a.toNat : Int) - b.toNat)

/-- The plain `Int` difference of two fractions (R88); it does not wrap. -/
def fracDiff (a b : Word) : Int := (a.toNat : Int) - b.toNat

/-- `twice` of R88: twice the clock offset in milliseconds. -/
def offsetTwice (k : Nat) (t1 t2 t3 t4 : Timestamp) : Int :=
  (secDiff t2.sec t1.sec + secDiff t3.sec t4.sec) * 1000
    + tquot (fracDiff t2.frac t1.frac + fracDiff t3.frac t4.frac) k

/-- `Offset(T1, T2, T3, T4)` in milliseconds (R88). -/
def clockOffset (k : Nat) (t1 t2 t3 t4 : Timestamp) : Int := tquot (offsetTwice k t1 t2 t3 t4) 2

/-- `Delay(T1, T2, T3, T4)` in milliseconds (R89). -/
def roundTripDelay (k : Nat) (t1 t2 t3 t4 : Timestamp) : Int :=
  (secDiff t4.sec t1.sec - secDiff t3.sec t2.sec) * 1000
    + tquot (fracDiff t4.frac t1.frac - fracDiff t3.frac t2.frac) k

/-! ### The LVM byte (R54) -/

/-- Bits 7 to 6: leap indicator. -/
def leapOf (lvm : Byte) : BitVec 2 := lvm.extractLsb' 6 2

/-- Bits 5 to 3: version. -/
def versionOf (lvm : Byte) : BitVec 3 := lvm.extractLsb' 3 3

/-- Bits 2 to 0: mode. -/
def modeOf (lvm : Byte) : BitVec 3 := lvm.extractLsb' 0 3

/-- `mode | (VERSION << VERSION_SHIFT)`, leap indicator 0 (R54). -/
def lvmByte (mode : Nat) : Byte := BitVec.ofNat 8 (mode ||| (hw.version <<< hw.versionShift))

/-! ### Operand forms of the packet commands -/

/-- `LEN ≥ PKT_SIZE`: the length check of the serialise commands (R78). -/
def State.lenFits (s : State) : Bool := hw.pktSize ≤ s.len.toNat

/-- `LEN = PKT_SIZE`: the length check of the deserialise commands (R78). -/
def State.lenExact (s : State) : Bool := s.len.toNat = hw.pktSize

/-- The as-sent transmit time (R79): the upper `CORR_BITS` bits of the correlator OR-ed into the low bits of the fraction. -/
def asSent (t : Timestamp) (correlator : Word) : Timestamp :=
  ⟨t.sec, t.frac ||| (correlator >>> (32 - hw.corrBits))⟩

/-- `ParseFrame()` (R82). -/
def State.parseFrame (s : State) : Frame where
  lvm     := s.memRead1 hw.offLvm
  stratum := s.memRead1 hw.offStratum
  refid   := s.memRead4 hw.offRefid
  org     := s.tsRead hw.offOrigin
  rcv     := s.tsRead hw.offReceive
  xmt     := s.tsRead hw.offTransmit

/-- `f.lvm[5:3] = VERSION` and `f.lvm[2:0] = MODE_SERVER` (R92). The leap indicator takes no part. -/
def serverVersionMode (lvm : Byte) : Bool :=
  versionOf lvm = BitVec.ofNat 3 hw.version && modeOf lvm = BitVec.ofNat 3 hw.modeServer

/-- `KissClass(refid)` (R91): the class of the first valid entry that holds the code, in ascending order. -/
def kissClass (table : List KissEntry) (refid : Word) : Status :=
  match table with
  | []     => .rejectedResponseOtherCode
  | e :: t => if e.valid = true ∧ e.code = refid then Status.ofKissClass e.cls else kissClass t refid

end Sys2Proof.Machine
end

