-- ==== Sys2Proof/Machine/Packet.lean ====
section
/-! DEFINITION. The packet family: `SER_REQ`, `DES_REQ`, `DES_RESP`, `SER_RESP` (spec R78 to R97). Every check stands
before the first write, so a command that fails has written nothing but `STATUS` and `LASTOP` (R8, R116). -/

namespace Sys2Proof.Machine

/-- The frame `SER_REQ` builds (R80, R81). -/
def State.buildRequest (s : State) (sent : Timestamp) : State :=
  (s.clearFrame.memWrite1 hw.offLvm (lvmByte hw.modeClient)).tsWrite hw.offTransmit sent

/-- `SER_REQ` (R79, R80). -/
def execSerReq (s : State) : Host.Outcome State Fault Refusal :=
  .next (
    if s.lenFits then
      let sent := asSent s.opa s.opw
      ((s.buildRequest sent).setRes sent).finish .serReq .success
    else s.finish .serReq .badParameter)

/-- `DES_REQ` (R83): no check of the frame's content. -/
def execDesReq (s : State) : Host.Outcome State Fault Refusal :=
  .next (
    if s.lenExact then (s.setFrame s.parseFrame).finish .desReq .success
    else s.finish .desReq .badParameter)

/-- What `DES_RESP` ends with, given the frame (R85 after the length check, in the order of R86). -/
def responseStatus (s : State) (f : Frame) : Status :=
  if f.org ≠ s.opa then .invalidResponse
  else if serverVersionMode f.lvm = false then .invalidResponse
  else if f.stratum = 0 then kissClass s.kiss.toList f.refid
  else .success

/-- What `DES_RESP` writes on `Success` (R85): the frame, the clock offset (R88), the round-trip delay (R89). -/
def State.acceptResponse (s : State) (f : Frame) : State :=
  (s.setFrame f).setOffsetDelay
    (i64 (clockOffset hw.fracPerMs s.opa f.rcv f.xmt s.opb))
    (i64 (roundTripDelay hw.fracPerMs s.opa f.rcv f.xmt s.opb))

/-- `DES_RESP` (R85 to R92, R96). -/
def execDesResp (s : State) : Host.Outcome State Fault Refusal :=
  .next (
    if s.lenExact then
      let f := s.parseFrame
      let st := responseStatus s f
      if st = .success then (s.acceptResponse f).finish .desResp .success
      else s.finish .desResp st
    else s.finish .desResp .invalidResponse)

/-- The frame `SER_RESP` builds (R93). -/
def State.buildResponse (s : State) : State :=
  (((((s.clearFrame.memWrite1 hw.offLvm (lvmByte hw.modeServer)).memWrite1 hw.offStratum (s.opx.extractLsb' 0 8)).memWrite4
    hw.offRefid s.opw).tsWrite hw.offOrigin s.opa).tsWrite hw.offReceive s.opb).tsWrite hw.offTransmit s.opc

/-- `SER_RESP` (R93). -/
def execSerResp (s : State) : Host.Outcome State Fault Refusal :=
  .next (if s.lenFits then s.buildResponse.finish .serResp .success else s.finish .serResp .badParameter)

end Sys2Proof.Machine
end

