-- ==== Sys2Proof/Machine/Timestamp.lean ====
section
/-! DEFINITION. The timestamp family: `TS_NOW`, `TS_ENC`, `TS_DEC`, `FRAC2MS`, `MS2FRAC` (spec R69 to R73). Every command
completes (R124), so each meaning answers a next state, whatever the state it starts from. -/

namespace Sys2Proof.Machine

/-- `TS_NOW` (R69). The clock port is sampled once, on success and on failure. -/
def execTsNow (s : State) : Host.Outcome State Fault Refusal :=
  .next (
    let c := s.clockSample
    if c.ok = false ∨ millisOk c.ms = false then
      s.clockTaken.finish .tsNow hw.nowFailStatus
    else
      (s.clockTaken.setRes ⟨toProtocolSeconds c.sec, msToFrac hw.fracPerMs c.ms⟩).finish .tsNow .success)

/-- `TS_ENC` (R70). -/
def execTsEnc (s : State) : Host.Outcome State Fault Refusal :=
  .next ((s.putTs wireBase s.opa).finish .tsEnc .success)

/-- `TS_DEC` (R71). -/
def execTsDec (s : State) : Host.Outcome State Fault Refusal :=
  .next ((s.setRes (s.tsAt wireBase)).finish .tsDec .success)

/-- `FRAC2MS` (R72). -/
def execFrac2Ms (s : State) : Host.Outcome State Fault Refusal :=
  .next ((s.setResW (fracToMs hw.fracPerMs s.opw)).finish .frac2ms .success)

/-- `MS2FRAC` (R73): a count of 1000 or more is refused with `BadParameter` (D11). -/
def execMs2Frac (s : State) : Host.Outcome State Fault Refusal :=
  .next (
    if millisOk s.opw then (s.setResW (msToFrac hw.fracPerMs s.opw)).finish .ms2frac .success
    else s.finish .ms2frac .badParameter)

end Sys2Proof.Machine
end

