-- ==== Sys2Proof/Machine/Dispatch.lean ====
section
/-! DEFINITION. One arm per command (spec R48), each one direct call of its meaning. -/

namespace Sys2Proof.Machine

def exec (i : Instr) (s : State) : Host.Outcome State Fault Refusal :=
  match i with
  | .tsNow => Sys2Proof.Machine.execTsNow s
  | .tsEnc => Sys2Proof.Machine.execTsEnc s
  | .tsDec => Sys2Proof.Machine.execTsDec s
  | .frac2ms => Sys2Proof.Machine.execFrac2Ms s
  | .ms2frac => Sys2Proof.Machine.execMs2Frac s
  | .serReq => Sys2Proof.Machine.execSerReq s
  | .desReq => Sys2Proof.Machine.execDesReq s
  | .desResp => Sys2Proof.Machine.execDesResp s
  | .serResp => Sys2Proof.Machine.execSerResp s

end Sys2Proof.Machine
end

