-- ==== Sys2Proof/Machine/Registers.lean ====
section
/-! DEFINITION. Reading and writing a register by name (spec R11 to R22, R33, R38). -/

namespace Sys2Proof.Machine

/-- The value a 32-bit read of a register returns (R30, R33). Reading has no side effect (R34). -/
def State.readReg (s : State) (r : Reg) : Word :=
  match r with
  | .cmd        => 0
  | .status     => statusWord s.status
  | .lastop     => s.lastop.setWidth 32
  | .flags      => flagsWord s.illcmd s.accerr
  | .opaSec     => s.opa.sec
  | .opaFrac    => s.opa.frac
  | .opbSec     => s.opb.sec
  | .opbFrac    => s.opb.frac
  | .opcSec     => s.opc.sec
  | .opcFrac    => s.opc.frac
  | .opw        => s.opw
  | .opx        => s.opx
  | .len        => s.len
  | .resSec     => s.res.sec
  | .resFrac    => s.res.frac
  | .resW       => s.resW
  | .pLvm       => s.p.lvm.setWidth 32
  | .pStratum   => s.p.stratum.setWidth 32
  | .pRefid     => s.p.refid
  | .pOrgSec    => s.p.org.sec
  | .pOrgFrac   => s.p.org.frac
  | .pRcvSec    => s.p.rcv.sec
  | .pRcvFrac   => s.p.rcv.frac
  | .pXmtSec    => s.p.xmt.sec
  | .pXmtFrac   => s.p.xmt.frac
  | .offsetMsLo => s.offsetMs.extractLsb' 0 32
  | .offsetMsHi => s.offsetMs.extractLsb' 32 32
  | .delayMsLo  => s.delayMs.extractLsb' 0 32
  | .delayMsHi  => s.delayMs.extractLsb' 32 32
  | .kissCode i => s.kiss[i].code
  | .kissCtl i  => kissCtlWord s.kiss[i]

/-- A 32-bit write to a register other than `CMD` (R33): operands and the kiss table store it, a read-only register
ignores it and sets no flag. `CMD` keeps nothing (R13): what writing it does is `runCommand`. -/
def State.writeReg (s : State) (r : Reg) (v : Word) : State :=
  match r with
  | .opaSec     => { s with opa := ⟨v, s.opa.frac⟩ }
  | .opaFrac    => { s with opa := ⟨s.opa.sec, v⟩ }
  | .opbSec     => { s with opb := ⟨v, s.opb.frac⟩ }
  | .opbFrac    => { s with opb := ⟨s.opb.sec, v⟩ }
  | .opcSec     => { s with opc := ⟨v, s.opc.frac⟩ }
  | .opcFrac    => { s with opc := ⟨s.opc.sec, v⟩ }
  | .opw        => { s with opw := v }
  | .opx        => { s with opx := v }
  | .len        => { s with len := v }
  | .kissCode i => { s with kiss := s.kiss.set i { s.kiss[i] with code := v } }
  | .kissCtl i  => { s with kiss := s.kiss.set i (s.kiss[i].setCtl v) }
  | .cmd        => s
  | .status     => s
  | .lastop     => s
  | .flags      => s
  | .resSec     => s
  | .resFrac    => s
  | .resW       => s
  | .pLvm       => s
  | .pStratum   => s
  | .pRefid     => s
  | .pOrgSec    => s
  | .pOrgFrac   => s
  | .pRcvSec    => s
  | .pRcvFrac   => s
  | .pXmtSec    => s
  | .pXmtFrac   => s
  | .offsetMsLo => s
  | .offsetMsHi => s
  | .delayMsLo  => s
  | .delayMsHi  => s

end Sys2Proof.Machine
end

