-- ==== Sys2Proof/WellFormed.lean ====
section
/-! DEFINITION. What is well formed: commands, command words (spec R45 to R49), port accesses (R31). -/

namespace Sys2Proof

/-- A command has no operand field (R47), so every command is well formed. -/
def Instr.wf (_ : Instr) : Bool := true

/-- A legal command word (R46). -/
def legalWord (w : Word) : Bool :=
  match decode w with
  | .ok _    => true
  | .error _ => false

namespace Machine

/-- A well-formed access (R31): 32 bits wide at a register's offset, or one byte wide inside a byte window. -/
def Access.wf (a : Access) : Bool :=
  match a with
  | .r32 off     => (regAt off).isSome
  | .w32 off _   => (regAt off).isSome
  | .r8 off      => byteMapped off
  | .w8 off _    => byteMapped off
  | .oddRead _ _ => false
  | .oddWrite _ _ => false

/-- A read access, of any width. -/
def Access.isRead (a : Access) : Bool :=
  match a with
  | .r32 _       => true
  | .w32 _ _     => false
  | .r8 _        => true
  | .w8 _ _      => false
  | .oddRead _ _ => true
  | .oddWrite _ _ => false

end Machine

end Sys2Proof
end

