-- ==== Sys2Proof/Machine/Port.lean ====
section
/-! DEFINITION. The host port (spec R13, R27, R30 to R34, R40, R49): what one access, one clock line, one RESET edge does. -/

namespace Sys2Proof.Machine

/-- A write of `w` to `CMD` (R13): decode (R46) and run the command to its end, or flag an illegal word (R49). -/
def runCommand (w : Word) (s : State) : Host.Outcome State Fault Refusal :=
  match decode w with
  | .ok i    => exec i s
  | .error _ => .next s.flagIllCmd

/-- A 32-bit read (R30): the register's value, or R32 where R38 lists no register. -/
def readWord (off : Nat) (s : State) : State :=
  match regAt off with
  | some r => s.reply (s.readReg r)
  | none   => s.flagAccErr.reply 0

/-- A 32-bit write (R30): `CMD` runs a command, any other register follows R33, an unlisted offset R32. -/
def writeWord (off : Nat) (v : Word) (s : State) : Host.Outcome State Fault Refusal :=
  match regAt off with
  | some .cmd => runCommand v s
  | some r    => .next (s.writeReg r v)
  | none      => .next s.flagAccErr

/-- A byte read (R30): the byte of `WIRE` or `PBUF`, or R32 outside both windows. -/
def readByte (off : Nat) (s : State) : State :=
  if byteMapped off then s.reply ((s.byteAt off).setWidth 32) else s.flagAccErr.reply 0

/-- A byte write (R30), or R32 outside both windows. -/
def writeByte (off : Nat) (b : Byte) (s : State) : State :=
  if byteMapped off then s.putBytes off [b] else s.flagAccErr

/-- One host access (R30 to R34). An access of an excluded width follows R32. -/
def runAccess (a : Access) (s : State) : Host.Outcome State Fault Refusal :=
  match a with
  | .r32 off     => .next (readWord off s)
  | .w32 off v   => writeWord off v s
  | .r8 off      => .next (readByte off s)
  | .w8 off b    => .next (writeByte off b s)
  | .oddRead _ _ => .next (s.flagAccErr.reply 0)
  | .oddWrite _ _ => .next s.flagAccErr

/-- Drive the RESET input (R27): releasing it after it was asserted gives the state of R29. -/
def driveReset (asserted : Bool) (s : State) : State :=
  match asserted with
  | true  => s.assertReset
  | false => if s.resetPin then s.releaseReset else s

/-- One event. While RESET is asserted no host access is accepted (R27): it has no effect (log entry 6). -/
def runEvent (e : Event) (s : State) : Host.Outcome State Fault Refusal :=
  match e with
  | .access a => if s.resetPin then .next s else runAccess a s
  | .ht c     => .next (s.presentClock c)
  | .reset b  => .next (driveReset b s)

end Sys2Proof.Machine
end

