-- ==== Sys2Proof/Machine/Step.lean ====
section
/-! DEFINITION. One step: the next event at the boundary of the block takes effect, whole (spec R40). -/

namespace Sys2Proof.Machine

/-- One step. The TSPC fetches nothing (R18): its commands come in the order in which the host writes `CMD`. With nothing
to come it waits and nothing changes (R127, log entry 2). -/
def step (s : State) : Host.Outcome State Fault Refusal :=
  match s.script with
  | []      => .next s
  | e :: es => runEvent e (s.setScript es)

/-- `s` with a write of the word `w` to `CMD` (R13) as the next thing the host does, and RESET not asserted, so that the
next step runs that command (log entry 1). -/
def State.withFetchWord (s : State) (nbits w : Nat) : State :=
  { s with
    script := .access (.w32 0x000 (BitVec.ofNat 32 (w % 2 ^ nbits))) :: s.script
    resetPin := false }

end Sys2Proof.Machine
end

