-- ==== Sys2Proof/Safety.lean ====
section
/-! DEFINITION. What a claim calls a clean run (spec R114) and the invariant of the machine (R19, R58, R112, log entry 7). -/

namespace Sys2Proof.Machine

/-- `FLAGS = 0`: no misuse of the port since reset (R114). -/
def State.flagsClear (s : State) : Bool := !s.illcmd && !s.accerr

/-- The statuses each command can end with (R112). -/
def mayEndWith (i : Instr) (st : Status) : Bool :=
  match i with
  | .tsNow   => st = .success || st = .timeNotSupported
  | .tsEnc   => st = .success
  | .tsDec   => st = .success
  | .frac2ms => st = .success
  | .ms2frac => st = .success || st = .badParameter
  | .serReq  => st = .success || st = .badParameter
  | .desReq  => st = .success || st = .badParameter
  | .desResp =>
    st = .success || st = .invalidResponse || st = .rejectedResponse || st = .rejectedResponseChangeServer
      || st = .rejectedResponseRetryWithBackoff || st = .rejectedResponseOtherCode
  | .serResp => st = .success || st = .badParameter

/-- `STATUS` agrees with `LASTOP`: no command yet and the reset value (R19, R29), or a status that command can end with
(R112). -/
def State.statusFits (s : State) : Bool :=
  match instrOfOpcode s.lastop.toNat with
  | some i => mayEndWith i s.status
  | none   => s.lastop = 0 && s.status = .success

/-- The invariant: the byte windows are in canonical form and `STATUS` agrees with `LASTOP`. -/
def State.Inv (s : State) : Prop := Memory.wf s.mem = true ∧ s.statusFits = true

end Sys2Proof.Machine
end

