-- ==== Sys2Proof/Certificates/Slice0/Obligations.lean ====
section
/-! DEFINITION. The statements for the provers, each from the numbered rules of the spec. Every numeric literal is the
spec's, written out; the byte windows are read through `State.byteAt`, `wordAt`, `tsAt` at port offsets (R38: `WIRE` from
0x0C0, `PBUF` from 0x100). -/

open Sys2Proof Sys2Proof.Machine

/-! ### Reset, the RESET input, waiting -/

/-- R29: the value of every register after reset, and `WIRE`, `PBUF` unspecified (free values, log entry 4). -/
def Obligations.ResetGivesListedValues : Prop :=
  State.reset.opa = ⟨0, 0⟩ ∧ State.reset.opb = ⟨0, 0⟩ ∧ State.reset.opc = ⟨0, 0⟩
    ∧ State.reset.opw = 0 ∧ State.reset.opx = 0 ∧ State.reset.len = 0
    ∧ State.reset.res = ⟨0, 0⟩ ∧ State.reset.resW = 0
    ∧ State.reset.p = ⟨0, 0, 0, ⟨0, 0⟩, ⟨0, 0⟩, ⟨0, 0⟩⟩
    ∧ State.reset.offsetMs = 0 ∧ State.reset.delayMs = 0
    ∧ State.reset.status.code = 0 ∧ State.reset.lastop = 0
    ∧ State.reset.illcmd = false ∧ State.reset.accerr = false
    ∧ (∀ i : Fin 4, State.reset.kiss[i].code = 0 ∧ kissCtlWord State.reset.kiss[i] = 0)
    ∧ ∀ a, State.reset.byteAt a = Config.freeByte State.reset.resets a

/-- R27, R125, D24: releasing RESET gives the state of R29 whatever the state was, with the buffer bytes unspecified anew. What is
outside the block (what is to come, the clock port, the host's last read value, the two counters of free values) is the
model's own (log entries 1 to 6). That a release of RESET that was not asserted changes nothing is the model's choice (log
entry 6). -/
def Obligations.ReleasingResetGivesResetState : Prop :=
  ∀ (s : State) (es : List Event), s.script = .reset false :: es →
    (s.resetPin = true → step s = .next { State.reset with
      script := es, ht := s.ht, rdata := s.rdata, clkReads := s.clkReads, resets := s.resets + 1 })
    ∧ (s.resetPin = false → step s = .next { s with script := es })

/-- R27: no host access is accepted while RESET is asserted. That such an access has no effect at all, and returns nothing
to the host, is the model's choice (log entry 6). -/
def Obligations.AccessDuringResetHasNoEffect : Prop :=
  (∀ (s : State) (es : List Event), s.script = .reset true :: es →
      step s = .next { s with script := es, resetPin := true })
    ∧ ∀ (s : State) (a : Access) (es : List Event), s.script = .access a :: es → s.resetPin = true →
      step s = .next { s with script := es }

/-- R127: the TSPC waits for the host; nothing runs by itself. That the model's step then answers the same state is log
entry 2. -/
def Obligations.NothingRunsByItself : Prop := ∀ s : State, s.script = [] → step s = .next s

/-! ### The command word -/

/-- The nine words of R48, written out in binary from R45 (bits 31 to 8 zero, opcode in bits 7 to 0). -/
def Obligations.ListedWordsDecode : Prop :=
  decode 0b00000000000000000000000000000001 = .ok .tsNow
    ∧ decode 0b00000000000000000000000000000010 = .ok .tsEnc
    ∧ decode 0b00000000000000000000000000000011 = .ok .tsDec
    ∧ decode 0b00000000000000000000000000000100 = .ok .frac2ms
    ∧ decode 0b00000000000000000000000000000101 = .ok .ms2frac
    ∧ decode 0b00000000000000000000000000010000 = .ok .serReq
    ∧ decode 0b00000000000000000000000000010001 = .ok .desReq
    ∧ decode 0b00000000000000000000000000010010 = .ok .desResp
    ∧ decode 0b00000000000000000000000000010011 = .ok .serResp

/-- R48: a word `w` selects a row when `w & mask = match`, for each of the nine rows. -/
def Obligations.OpcodeRowsSelectByMaskAndMatch : Prop :=
  ∀ row ∈ ([(0x00000001, .tsNow), (0x00000002, .tsEnc), (0x00000003, .tsDec), (0x00000004, .frac2ms),
      (0x00000005, .ms2frac), (0x00000010, .serReq), (0x00000011, .desReq), (0x00000012, .desResp),
      (0x00000013, .serResp)] : List (Word × Instr)),
    ∀ w : Word, decode w = .ok row.2 ↔ w &&& 0xFFFFFFFF = row.1

/-- Decoder and encoder agree in both directions: every command's word decodes to it, and no other word does (R45 to R48). -/
def Obligations.DecodeAndEncodeAgree : Prop :=
  ∀ i w, (i.wf = true → decode (encode i) = .ok i ∧ decodeTableWord 32 (encode i).toNat = some i)
    ∧ (decode w = .ok i ↔ w = encode i)

/-- R49: exactly the listed words are illegal, and writing one to `CMD` sets `FLAGS.ILLCMD` and changes nothing else. -/
def Obligations.IllegalWordSetsIllcmdOnly : Prop :=
  ∀ w : Word,
    let illegal := w.extractLsb' 8 24 ≠ 0 ∨ w.extractLsb' 0 8 = 0x00
      ∨ (0x06 ≤ w.extractLsb' 0 8 ∧ w.extractLsb' 0 8 ≤ 0x0F) ∨ (0x14 ≤ w.extractLsb' 0 8)
    (illegal ↔ ∀ i, decode w ≠ .ok i)
      ∧ (illegal → ∀ (s : State) (es : List Event),
          s.script = .access (.w32 0x000 w) :: es → s.resetPin = false →
          step s = .next { s with script := es, illcmd := true })

/-! ### The host port -/

/-- R13: a write of a legal word to `CMD` runs that command whole, with the access taken off what is to come; a read of
`CMD` returns 0. -/
def Obligations.StepRunsDecodedCommand : Prop :=
  (∀ (s : State) (w : Word) (i : Instr) (es : List Event), s.script = .access (.w32 0x000 w) :: es →
      s.resetPin = false → decode w = .ok i → i.wf = true →
      step s = exec i { s with script := es })
    ∧ ∀ (s : State) (es : List Event), s.script = .access (.r32 0x000) :: es → s.resetPin = false →
      step s = .next { s with script := es, rdata := 0 }

/-- R38, R15, R16, R19, R20, R22: what a 32-bit read returns at every register offset; it changes nothing else (R34). -/
def Obligations.RegisterReadReturnsListedRegister : Prop :=
  ∀ (s : State) (off : Nat) (v : Word) (es : List Event),
    (off, v) ∈ ([(0x000, 0), (0x004, s.status.code.setWidth 32), (0x008, s.lastop.setWidth 32),
        (0x00C, (if s.illcmd then 1 else 0) + (if s.accerr then 2 else 0)),
        (0x010, s.opa.sec), (0x014, s.opa.frac), (0x018, s.opb.sec), (0x01C, s.opb.frac),
        (0x020, s.opc.sec), (0x024, s.opc.frac), (0x028, s.opw), (0x02C, s.opx), (0x030, s.len),
        (0x040, s.res.sec), (0x044, s.res.frac), (0x048, s.resW),
        (0x050, s.p.lvm.setWidth 32), (0x054, s.p.stratum.setWidth 32), (0x058, s.p.refid),
        (0x05C, s.p.org.sec), (0x060, s.p.org.frac), (0x064, s.p.rcv.sec), (0x068, s.p.rcv.frac),
        (0x06C, s.p.xmt.sec), (0x070, s.p.xmt.frac),
        (0x078, s.offsetMs.setWidth 32), (0x07C, (s.offsetMs >>> 32).setWidth 32),
        (0x080, s.delayMs.setWidth 32), (0x084, (s.delayMs >>> 32).setWidth 32)] : List (Nat × Word))
      ∨ (∃ i : Fin 4, off = 0x0A0 + 8 * i.val ∧ v = s.kiss[i].code)
      ∨ (∃ i : Fin 4, off = 0x0A4 + 8 * i.val
          ∧ v = (if s.kiss[i].valid then 0x80000000 else 0) + s.kiss[i].cls.setWidth 32) →
    s.script = .access (.r32 off) :: es → s.resetPin = false → step s = .next { s with script := es, rdata := v }

/-- R33: read-only registers ignore writes and set no flag; `CMD` reads 0; bits 30 to 2 of `KISS_CTL[i]` ignore writes and
read 0; every other register stores all 32 bits. -/
def Obligations.RegisterWriteRights : Prop :=
  (∀ (s : State) (off : Nat) (v : Word) (es : List Event),
      off ∈ [0x004, 0x008, 0x00C, 0x040, 0x044, 0x048, 0x050, 0x054, 0x058, 0x05C, 0x060, 0x064, 0x068, 0x06C, 0x070,
        0x078, 0x07C, 0x080, 0x084] →
      s.script = .access (.w32 off v) :: es → s.resetPin = false → step s = .next { s with script := es })
    ∧ (∀ (s : State) (es : List Event), s.script = .access (.r32 0x000) :: es → s.resetPin = false →
        step s = .next { s with script := es, rdata := 0 })
    ∧ (∀ (s : State) (v : Word) (es : List Event) (i : Fin 4), s.script = .access (.w32 (0x0A4 + 8 * i.val) v) :: es →
        s.resetPin = false →
        ∃ t, step s = .next t ∧ t = { s with script := es, kiss := t.kiss }
          ∧ kissCtlWord t.kiss[i] = v &&& 0x80000003 ∧ t.kiss[i].code = s.kiss[i].code
          ∧ ∀ j : Fin 4, j ≠ i → t.kiss[j] = s.kiss[j])
    ∧ (∀ (s : State) (v : Word) (es : List Event) (i : Fin 4), s.script = .access (.w32 (0x0A0 + 8 * i.val) v) :: es →
        s.resetPin = false →
        ∃ t, step s = .next t ∧ t = { s with script := es, kiss := t.kiss }
          ∧ t.kiss[i].code = v ∧ kissCtlWord t.kiss[i] = kissCtlWord s.kiss[i]
          ∧ ∀ j : Fin 4, j ≠ i → t.kiss[j] = s.kiss[j])
    ∧ ∀ (s : State) (off : Nat) (v : Word) (es : List Event) (t : State),
      (off, t) ∈ ([(0x010, { s with opa := ⟨v, s.opa.frac⟩ }), (0x014, { s with opa := ⟨s.opa.sec, v⟩ }),
          (0x018, { s with opb := ⟨v, s.opb.frac⟩ }), (0x01C, { s with opb := ⟨s.opb.sec, v⟩ }),
          (0x020, { s with opc := ⟨v, s.opc.frac⟩ }), (0x024, { s with opc := ⟨s.opc.sec, v⟩ }),
          (0x028, { s with opw := v }), (0x02C, { s with opx := v }), (0x030, { s with len := v })] : List (Nat × State)) →
      s.script = .access (.w32 off v) :: es → s.resetPin = false → step s = .next { t with script := es }

/-- R23, R24, R30, R38: a byte access inside `WIRE` or `PBUF` reads or writes that byte and nothing else. -/
def Obligations.ByteWindowsReadAndWrite : Prop :=
  ∀ (s : State) (off : Nat) (es : List Event),
    (0x0C0 ≤ off ∧ off ≤ 0x0C7) ∨ (0x100 ≤ off ∧ off ≤ 0x12F) → s.resetPin = false →
    (s.script = .access (.r8 off) :: es →
      step s = .next { s with script := es, rdata := (s.byteAt off).setWidth 32 })
    ∧ ∀ b, s.script = .access (.w8 off b) :: es →
      ∃ t, step s = .next t ∧ t = { s with script := es, mem := t.mem } ∧ t.byteAt off = b
        ∧ ∀ a, a ≠ off → t.byteAt a = s.byteAt a

/-- R32: an access that breaks R31 (a register-width access where R38 lists no register, the byte windows and unaligned
offsets among them; a byte access outside both windows; any other width) sets `FLAGS.ACCERR`, reads 0, and changes nothing
else. That the excluded widths are the four of `OddWidth`, a burst being one access and not split, is the model's reading
(log entry 15), and so is the field the 0 is returned in (log entry 5). -/
def Obligations.IllFormedAccessSetsAccerrOnly : Prop :=
  ∀ (s : State) (off : Nat) (v : Word) (b : Byte) (k : OddWidth) (es : List Event),
    let registers := [0x000, 0x004, 0x008, 0x00C, 0x010, 0x014, 0x018, 0x01C, 0x020, 0x024, 0x028, 0x02C, 0x030, 0x040, 0x044,
      0x048, 0x050, 0x054, 0x058, 0x05C, 0x060, 0x064, 0x068, 0x06C, 0x070, 0x078, 0x07C, 0x080, 0x084,
      0x0A0, 0x0A4, 0x0A8, 0x0AC, 0x0B0, 0x0B4, 0x0B8, 0x0BC]
    let inWindow := (0x0C0 ≤ off ∧ off ≤ 0x0C7) ∨ (0x100 ≤ off ∧ off ≤ 0x12F)
    s.resetPin = false →
      (off ∉ registers → s.script = .access (.r32 off) :: es →
        step s = .next { s with script := es, accerr := true, rdata := 0 })
      ∧ (off ∉ registers → s.script = .access (.w32 off v) :: es →
        step s = .next { s with script := es, accerr := true })
      ∧ (¬ inWindow → s.script = .access (.r8 off) :: es →
        step s = .next { s with script := es, accerr := true, rdata := 0 })
      ∧ (¬ inWindow → s.script = .access (.w8 off b) :: es → step s = .next { s with script := es, accerr := true })
      ∧ (s.script = .access (.oddRead k off) :: es →
        step s = .next { s with script := es, accerr := true, rdata := 0 })
      ∧ (s.script = .access (.oddWrite k off) :: es → step s = .next { s with script := es, accerr := true })

/-! ### Rules about the whole machine -/

/-- R20: `ILLCMD` and `ACCERR` are cleared by releasing RESET only, no command writes or reads them, and a read of `FLAGS`
shows them in bits 0 and 1 with bits 31 to 2 zero. That the release clears them: `ReleasingResetGivesResetState`. -/
def Obligations.FlagsStickyAndUnreadByCommands : Prop :=
  (∀ (s t : State), step s = .next t → ¬ (s.resetPin = true ∧ s.script.head? = some (.reset false)) →
      (s.illcmd = true → t.illcmd = true) ∧ (s.accerr = true → t.accerr = true))
    ∧ (∀ (i : Instr) (s : State) (x y : Bool), ∃ t, exec i s = .next t ∧ t.illcmd = s.illcmd ∧ t.accerr = s.accerr
      ∧ exec i { s with illcmd := x, accerr := y } = .next { t with illcmd := x, accerr := y })
    ∧ ∀ s : State, s.readReg .flags = (if s.illcmd then 0x00000001 else 0) + (if s.accerr then 0x00000002 else 0)

/-- R19: every legal command writes `STATUS` and `LASTOP` (`LASTOP` becomes its opcode, and what either held before has no
influence on the state it leaves), nothing else writes either, `STATUS` reads below 32 and `LASTOP` below 256, and
`LASTOP = 0` after reset is no command's opcode. -/
def Obligations.StatusAndLastopWrittenByCommandsOnly : Prop :=
  (∀ (i : Instr) (s t : State), exec i s = .next t → t.lastop.setWidth 32 = encode i)
    ∧ (∀ (i : Instr) (s : State) (x : Status) (y : Byte), exec i { s with status := x, lastop := y } = exec i s)
    ∧ (∀ (s t : State), step s = .next t → ¬ (s.resetPin = true ∧ s.script.head? = some (.reset false)) →
        (∀ w i, s.script.head? = some (.access (.w32 0x000 w)) → s.resetPin = false → decode w ≠ .ok i) →
        t.status = s.status ∧ t.lastop = s.lastop)
    ∧ (∀ s : State, (s.readReg .status).toNat = s.status.code.toNat ∧ (s.readReg .lastop).toNat = s.lastop.toNat)
    ∧ State.reset.lastop = 0 ∧ ∀ i, decode 0 ≠ .ok i

/-- R14, R15, R16, R133: only commands write the result registers, and only when they end with `Success`. -/
def Obligations.ResultsWrittenBySuccessfulCommandsOnly : Prop :=
  (∀ (s t : State), step s = .next t → ¬ (s.resetPin = true ∧ s.script.head? = some (.reset false)) →
      (∀ w i, s.script.head? = some (.access (.w32 0x000 w)) → s.resetPin = false → decode w ≠ .ok i) →
      t.res = s.res ∧ t.resW = s.resW ∧ t.p = s.p ∧ t.offsetMs = s.offsetMs ∧ t.delayMs = s.delayMs)
    ∧ ∀ (i : Instr) (s t : State), exec i s = .next t → t.status ≠ .success →
      t.res = s.res ∧ t.resW = s.resW ∧ t.p = s.p ∧ t.offsetMs = s.offsetMs ∧ t.delayMs = s.delayMs

/-- R17, column by column: what each command leaves untouched, whatever it ends with. Only `TS_NOW` touches the clock port
(the port and its counter are the model's own, log entry 3). -/
def Obligations.CommandsWriteOnlyTheirResults : Prop :=
  ∀ (i : Instr) (s t : State), exec i s = .next t →
    t.opa = s.opa ∧ t.opb = s.opb ∧ t.opc = s.opc ∧ t.opw = s.opw ∧ t.opx = s.opx ∧ t.len = s.len
      ∧ t.kiss = s.kiss ∧ t.illcmd = s.illcmd ∧ t.accerr = s.accerr
      ∧ t.resetPin = s.resetPin ∧ t.script = s.script ∧ t.rdata = s.rdata ∧ t.resets = s.resets
      ∧ (i ≠ .tsNow → t.ht = s.ht ∧ t.clkReads = s.clkReads)
      ∧ (i ≠ .tsNow → i ≠ .tsDec → i ≠ .serReq → t.res = s.res)
      ∧ (i ≠ .frac2ms → i ≠ .ms2frac → t.resW = s.resW)
      ∧ (i ≠ .desReq → i ≠ .desResp → t.p = s.p)
      ∧ (i ≠ .desResp → t.offsetMs = s.offsetMs ∧ t.delayMs = s.delayMs)
      ∧ (i ≠ .tsEnc → i ≠ .serReq → i ≠ .serResp → ∀ a, t.byteAt a = s.byteAt a)
      ∧ (i = .tsEnc → ∀ a, a < 0x0C0 ∨ 0x0C7 < a → t.byteAt a = s.byteAt a)
      ∧ (i = .serReq ∨ i = .serResp → ∀ a, a < 0x100 ∨ 0x12F < a → t.byteAt a = s.byteAt a)

/-- R17 read the other way, with U8, U26, R138: a command's status and results depend on the operands R17 lists for it and on
nothing else; of `PBUF` a deserialise command reads bytes 0, 1, 12 to 15, 24 to 47 only (R52), `SER_REQ` only the upper half
of `OPW` (R79), `SER_RESP` only the low byte of `OPX` (R12). -/
def Obligations.CommandsReadOnlyTheirOperands : Prop :=
  ∀ (i : Instr) (s s' t t' : State), exec i s = .next t → exec i s' = .next t' →
    (i = .tsNow → s.clockSample = s'.clockSample) →
    (i = .tsEnc ∨ i = .serReq ∨ i = .desResp ∨ i = .serResp → s.opa = s'.opa) →
    (i = .desResp ∨ i = .serResp → s.opb = s'.opb) →
    (i = .serResp → s.opc = s'.opc ∧ s.opw = s'.opw ∧ s.opx.extractLsb' 0 8 = s'.opx.extractLsb' 0 8) →
    (i = .frac2ms ∨ i = .ms2frac → s.opw = s'.opw) →
    (i = .serReq → s.opw.extractLsb' 16 16 = s'.opw.extractLsb' 16 16) →
    (i = .serReq ∨ i = .desReq ∨ i = .desResp ∨ i = .serResp → s.len = s'.len) →
    (i = .desResp → s.kiss = s'.kiss) →
    (i = .tsDec → ∀ n, n < 8 → s.byteAt (0x0C0 + n) = s'.byteAt (0x0C0 + n)) →
    (i = .desReq ∨ i = .desResp → ∀ n, n ∈ [0, 1, 12, 13, 14, 15] ∨ (24 ≤ n ∧ n < 48) →
      s.byteAt (0x100 + n) = s'.byteAt (0x100 + n)) →
    t.status = t'.status
      ∧ (t.status = .success →
          (i = .tsNow ∨ i = .tsDec ∨ i = .serReq → t.res = t'.res)
          ∧ (i = .frac2ms ∨ i = .ms2frac → t.resW = t'.resW)
          ∧ (i = .desReq ∨ i = .desResp → t.p = t'.p)
          ∧ (i = .desResp → t.offsetMs = t'.offsetMs ∧ t.delayMs = t'.delayMs)
          ∧ (i = .tsEnc → ∀ n, n < 8 → t.byteAt (0x0C0 + n) = t'.byteAt (0x0C0 + n))
          ∧ (i = .serReq ∨ i = .serResp → ∀ n, n < 48 → t.byteAt (0x100 + n) = t'.byteAt (0x100 + n)))

/-- R39, R78: a deserialise command reads no byte of `PBUF` unless `LEN` = 48. -/
def Obligations.WrongLengthReadsNoFrameByte : Prop :=
  ∀ (i : Instr) (s : State) (m : Memory), i = .desReq ∨ i = .desResp → s.len.toNat ≠ 48 →
    ∃ t, exec i s = .next t ∧ t.status ≠ .success ∧ exec i { s with mem := m } = .next { t with mem := m }

/-- R116, R8: a command that ends with a status other than `Success` has written `STATUS` and `LASTOP` and nothing else. The
clock port is not state of the block; `TS_NOW` samples it either way (log entry 3). -/
def Obligations.FailedCommandWritesStatusOnly : Prop :=
  ∀ (i : Instr) (s t : State), exec i s = .next t → t.status ≠ .success →
    t = { s with status := t.status, lastop := i.opcode, ht := t.ht, clkReads := t.clkReads }
      ∧ (i ≠ .tsNow → t.ht = s.ht ∧ t.clkReads = s.clkReads)

/-- R58, R112: the statuses each command can end with; the ten others are never produced. -/
def Obligations.CommandsEndWithListedStatuses : Prop :=
  ∀ (i : Instr) (s t : State), exec i s = .next t →
    t.status.code.toNat ∈ (match i with
      | .tsNow   => [0, 9]
      | .tsEnc   => [0]
      | .tsDec   => [0]
      | .frac2ms => [0]
      | .ms2frac => [0, 1]
      | .serReq  => [0, 1]
      | .desReq  => [0, 1]
      | .desResp => [0, 3, 4, 5, 6, 7]
      | .serResp => [0, 1] : List Nat)

/-- R124: no command and no access stops, traps or hangs the block. -/
def Obligations.EveryStepAnswersNextState : Prop := ∀ s : State, ∃ t, step s = .next t

/-- The invariant holds right after reset. -/
def Obligations.ResetMeetsMachineInvariant : Prop := State.reset.Inv

/-- Every step keeps the invariant: the byte windows stay in canonical form (log entry 7), and `STATUS` holds a status that
the command `LASTOP` names can end with, or `Success` where there was no command yet (R19, R29, R58, R112). -/
def Obligations.EveryStepKeepsMachineInvariant : Prop := ∀ (s t : State), s.Inv → step s = .next t → t.Inv

/-! ### The timestamp family -/

/-- R69: `TS_NOW`, opcode 0x01. Nothing is claimed of the two fields of the model's clock port (log entry 3). -/
def Obligations.TsNowConvertsClockSample : Prop :=
  decode 0x00000001 = .ok .tsNow ∧ ∀ s : State,
    (s.clockSample.ok = true → s.clockSample.ms.toNat < 1000 →
      ∃ t, exec .tsNow s = .next t
        ∧ t.res.sec.toNat = (s.clockSample.sec.toNat + 2208988800) % 2 ^ 32
        ∧ t.res.frac.toNat = s.clockSample.ms.toNat * 4295000
        ∧ t = { s with res := t.res, status := .success, lastop := 0x01, ht := t.ht, clkReads := t.clkReads })
    ∧ (s.clockSample.ok = false ∨ 1000 ≤ s.clockSample.ms.toNat →
      ∃ t, exec .tsNow s = .next t
        ∧ t = { s with status := .timeNotSupported, lastop := 0x01, ht := t.ht, clkReads := t.clkReads })

/-- R26, R60: an `HT` line states what the next `TS_NOW` samples; after a `TS_NOW` the next sample is drawn afresh (U6). The
two fields that carry this, and that an `HT` line is a step of its own, are the model's (log entries 1, 3). -/
def Obligations.ClockLineFeedsNextTsNowOnly : Prop :=
  (∀ (s : State) (c : Config.ClockSample) (es : List Event), s.script = .ht c :: es →
      ∃ t, step s = .next t ∧ t = { s with script := es, ht := some c } ∧ t.clockSample = c)
    ∧ ∀ s : State, ∃ t, exec .tsNow s = .next t ∧ t.clockSample = Config.freeClock (s.clkReads + 1)

/-- R70: `TS_ENC`, opcode 0x02. -/
def Obligations.TsEncWritesWireOrder : Prop :=
  decode 0x00000002 = .ok .tsEnc ∧ ∀ s : State, ∃ t, exec .tsEnc s = .next t
    ∧ t.byteAt 0x0C0 = s.opa.sec.extractLsb' 24 8 ∧ t.byteAt 0x0C1 = s.opa.sec.extractLsb' 16 8
    ∧ t.byteAt 0x0C2 = s.opa.sec.extractLsb' 8 8 ∧ t.byteAt 0x0C3 = s.opa.sec.extractLsb' 0 8
    ∧ t.byteAt 0x0C4 = s.opa.frac.extractLsb' 24 8 ∧ t.byteAt 0x0C5 = s.opa.frac.extractLsb' 16 8
    ∧ t.byteAt 0x0C6 = s.opa.frac.extractLsb' 8 8 ∧ t.byteAt 0x0C7 = s.opa.frac.extractLsb' 0 8
    ∧ (∀ a, a < 0x0C0 ∨ 0x0C7 < a → t.byteAt a = s.byteAt a)
    ∧ t = { s with mem := t.mem, status := .success, lastop := 0x02 }

/-- R71: `TS_DEC`, opcode 0x03. -/
def Obligations.TsDecReadsWireOrder : Prop :=
  decode 0x00000003 = .ok .tsDec ∧ ∀ s : State, ∃ t, exec .tsDec s = .next t
    ∧ t.res.sec.toNat = (s.byteAt 0x0C0).toNat * 2 ^ 24 + (s.byteAt 0x0C1).toNat * 2 ^ 16
        + (s.byteAt 0x0C2).toNat * 2 ^ 8 + (s.byteAt 0x0C3).toNat
    ∧ t.res.frac.toNat = (s.byteAt 0x0C4).toNat * 2 ^ 24 + (s.byteAt 0x0C5).toNat * 2 ^ 16
        + (s.byteAt 0x0C6).toNat * 2 ^ 8 + (s.byteAt 0x0C7).toNat
    ∧ t = { s with res := t.res, status := .success, lastop := 0x03 }

/-- R74: `TS_DEC` undoes `TS_ENC`, and `TS_ENC` of what `TS_DEC` read leaves `WIRE` as it was. -/
def Obligations.WireRoundTrip : Prop :=
  (∀ s : State, ∃ u t : State, exec .tsEnc s = .next u ∧ exec .tsDec u = .next t ∧ t.res = s.opa)
    ∧ ∀ s : State, ∃ u t : State, exec .tsDec s = .next u ∧ exec .tsEnc { u with opa := u.res } = .next t
      ∧ ∀ a, t.byteAt a = s.byteAt a

/-- R72: `FRAC2MS`, opcode 0x04. -/
def Obligations.FracToMsDivides : Prop :=
  decode 0x00000004 = .ok .frac2ms ∧ ∀ s : State, ∃ t, exec .frac2ms s = .next t
    ∧ t.resW.toNat = s.opw.toNat / 4295000 ∧ t.resW.toNat ≤ 999
    ∧ t = { s with resW := t.resW, status := .success, lastop := 0x04 }

/-- R73: `MS2FRAC`, opcode 0x05. -/
def Obligations.MsToFracMultipliesOrRefuses : Prop :=
  decode 0x00000005 = .ok .ms2frac ∧ ∀ s : State,
    (s.opw.toNat < 1000 → ∃ t, exec .ms2frac s = .next t ∧ t.resW.toNat = s.opw.toNat * 4295000
      ∧ t = { s with resW := t.resW, status := .success, lastop := 0x05 })
    ∧ (1000 ≤ s.opw.toNat → exec .ms2frac s = .next { s with status := .badParameter, lastop := 0x05 })

/-- R75: for every `m` in 0 to 999, `MS2FRAC` and then `FRAC2MS` of its result give `m` back. -/
def Obligations.MillisRoundTrip : Prop :=
  ∀ s : State, s.opw.toNat < 1000 → ∃ u t : State, exec .ms2frac s = .next u ∧ u.status = .success
    ∧ exec .frac2ms { u with opw := u.resW } = .next t ∧ t.status = .success ∧ t.resW = s.opw

/-- R68: the three demands on `K`, for every `K` the parameter may take. -/
def Obligations.ScaleConstantRange : Prop :=
  (∀ k : Nat, (999 * k ≤ 4294967295 ∧ 4294967295 < 1000 * k) ↔ (4294968 ≤ k ∧ k ≤ 4299266))
    ∧ ∀ k : Nat, 4294968 ≤ k → k ≤ 4299266 →
      (∀ m : Word, m.toNat ≤ 999 → (msToFrac k m).toNat = m.toNat * k ∧ fracToMs k (msToFrac k m) = m)
      ∧ ∀ f : Word, (fracToMs k f).toNat ≤ 999

/-- R76: the other round trip gives the largest multiple of `K` not above the fraction. -/
def Obligations.FractionRoundTripRoundsDown : Prop :=
  ∀ s : State, ∃ u t : State, exec .frac2ms s = .next u ∧ exec .ms2frac { u with opw := u.resW } = .next t
    ∧ u.status = .success ∧ t.status = .success
    ∧ t.resW.toNat ≤ s.opw.toNat ∧ s.opw.toNat - t.resW.toNat < 4295000 ∧ 4295000 ∣ t.resW.toNat

/-- R65: the signed minimal residue: its range, that it is the difference modulo 2^32, that it is the true difference of
instants less than 2^31 seconds apart, the tie, the document's example. -/
def Obligations.SecondsDifferenceIsSignedMinimalResidue : Prop :=
  (∀ a b : Word, -2147483648 ≤ secDiff a b ∧ secDiff a b ≤ 2147483647
      ∧ (4294967296 : Int) ∣ secDiff a b - ((a.toNat : Int) - b.toNat))
    ∧ (∀ x y : Int, x - y < 2147483648 → -2147483648 < x - y →
        secDiff (BitVec.ofInt 32 x) (BitVec.ofInt 32 y) = x - y)
    ∧ (∀ a b : Word, a - b = 0x80000000 → secDiff a b = -2147483648)
    ∧ secDiff 0x00000001 0xFFFFFFFE = 3

/-- R66: `tquot` truncates toward zero at every sign, and no command divides by zero. -/
def Obligations.QuotientTruncatesTowardZero : Prop :=
  (∀ a b : Int, 0 < b →
      (0 ≤ a → tquot a b = a / b) ∧ (a < 0 → tquot a b = -((-a) / b)) ∧ tquot (-a) b = -tquot a b)
    ∧ tquot (-7) 2 = -3 ∧ (∀ f : Word, ((fracToMs hw.fracPerMs f).toNat : Int) = tquot f.toNat hw.fracPerMs)
    ∧ 4294968 ≤ hw.fracPerMs

/-! ### The packet family -/

/-- R79, R80: `SER_REQ`, opcode 0x10. -/
def Obligations.SerReqBuildsRequestFrame : Prop :=
  decode 0x00000010 = .ok .serReq ∧ ∀ s : State,
    (48 ≤ s.len.toNat → ∃ t, exec .serReq s = .next t
      ∧ t.res.sec = s.opa.sec ∧ t.res.frac = s.opa.frac ||| (s.opw.extractLsb' 16 16).setWidth 32
      ∧ t.byteAt 0x100 = 0x23 ∧ (∀ n, 1 ≤ n → n ≤ 39 → t.byteAt (0x100 + n) = 0)
      ∧ t.byteAt 0x128 = t.res.sec.extractLsb' 24 8 ∧ t.byteAt 0x129 = t.res.sec.extractLsb' 16 8
      ∧ t.byteAt 0x12A = t.res.sec.extractLsb' 8 8 ∧ t.byteAt 0x12B = t.res.sec.extractLsb' 0 8
      ∧ t.byteAt 0x12C = t.res.frac.extractLsb' 24 8 ∧ t.byteAt 0x12D = t.res.frac.extractLsb' 16 8
      ∧ t.byteAt 0x12E = t.res.frac.extractLsb' 8 8 ∧ t.byteAt 0x12F = t.res.frac.extractLsb' 0 8
      ∧ (∀ a, a < 0x100 ∨ 0x12F < a → t.byteAt a = s.byteAt a)
      ∧ t = { s with mem := t.mem, res := t.res, status := .success, lastop := 0x10 })
    ∧ (s.len.toNat < 48 → exec .serReq s = .next { s with status := .badParameter, lastop := 0x10 })

/-- R82, R83: `DES_REQ`, opcode 0x11. -/
def Obligations.DesReqParsesFrame : Prop :=
  decode 0x00000011 = .ok .desReq ∧ ∀ s : State,
    (s.len.toNat = 48 → exec .desReq s = .next { s with
      p := { lvm := s.byteAt 0x100, stratum := s.byteAt 0x101, refid := s.wordAt 0x10C,
             org := ⟨s.wordAt 0x118, s.wordAt 0x11C⟩, rcv := ⟨s.wordAt 0x120, s.wordAt 0x124⟩,
             xmt := ⟨s.wordAt 0x128, s.wordAt 0x12C⟩ }
      status := .success, lastop := 0x11 })
    ∧ (s.len.toNat ≠ 48 → exec .desReq s = .next { s with status := .badParameter, lastop := 0x11 })

/-- R36: the byte primitives of the commands, big-endian, and that a word read after it was written is that word. -/
def Obligations.FramePrimitivesAreBigEndian : Prop :=
  ∀ (s : State) (off : Nat),
    s.memRead1 off = s.byteAt (0x100 + off)
      ∧ (s.memRead4 off).toNat = (s.byteAt (0x100 + off)).toNat * 2 ^ 24 + (s.byteAt (0x100 + off + 1)).toNat * 2 ^ 16
          + (s.byteAt (0x100 + off + 2)).toNat * 2 ^ 8 + (s.byteAt (0x100 + off + 3)).toNat
      ∧ s.tsRead off = ⟨s.memRead4 off, s.memRead4 (off + 4)⟩
      ∧ (∀ (b : Byte) (a : Nat), (s.memWrite1 off b).byteAt a = if a = 0x100 + off then b else s.byteAt a)
      ∧ (∀ (v : Word) (a : Nat), (s.memWrite4 off v).byteAt a =
          if a = 0x100 + off then v.extractLsb' 24 8 else if a = 0x100 + off + 1 then v.extractLsb' 16 8
          else if a = 0x100 + off + 2 then v.extractLsb' 8 8 else if a = 0x100 + off + 3 then v.extractLsb' 0 8
          else s.byteAt a)
      ∧ (∀ (t : Timestamp) (a : Nat),
          (s.tsWrite off t).byteAt a = ((s.memWrite4 off t.sec).memWrite4 (off + 4) t.frac).byteAt a)
      ∧ ∀ v : Word, (s.memWrite4 off v).memRead4 off = v

/-- R86, R115: the order of the checks of `DES_RESP`, opcode 0x12: length, origin, version and mode. The first that fails
gives `InvalidResponse`, and nothing but `STATUS` and `LASTOP` is written. -/
def Obligations.DesRespChecksInOrder : Prop :=
  decode 0x00000012 = .ok .desResp ∧ ∀ s : State,
    let origin : Timestamp := ⟨s.wordAt 0x118, s.wordAt 0x11C⟩
    let lvm := s.byteAt 0x100
    let passes := s.len.toNat = 48 ∧ origin = s.opa ∧ lvm.extractLsb' 3 3 = 4 ∧ lvm.extractLsb' 0 3 = 4
    (¬ passes → exec .desResp s = .next { s with status := .invalidResponse, lastop := 0x12 })
    ∧ (passes → s.byteAt 0x101 = 0 → ∃ st, exec .desResp s = .next { s with status := st, lastop := 0x12 }
        ∧ 4 ≤ st.code.toNat ∧ st.code.toNat ≤ 7)
    ∧ (passes → s.byteAt 0x101 ≠ 0 → ∃ t, exec .desResp s = .next t ∧ t.status = .success)

/-- R91: kiss-of-death classification. At stratum 0 the first valid entry that holds the reference id decides, and without
one it is `RejectedResponseOtherCode`; at any other stratum the table is not read, whatever it holds. -/
def Obligations.KissOfDeathClassifiedByFirstValidEntry : Prop :=
  ∀ s : State, s.len.toNat = 48 → s.tsAt 0x118 = s.opa → (s.byteAt 0x100).extractLsb' 3 3 = (4 : BitVec 3) →
    (s.byteAt 0x100).extractLsb' 0 3 = (4 : BitVec 3) →
    (s.byteAt 0x101 = 0 → ∃ st, exec .desResp s = .next { s with status := st, lastop := 0x12 }
      ∧ (∀ i : Fin 4, s.kiss[i].valid = true → s.kiss[i].code = s.wordAt 0x10C →
          (∀ j : Fin 4, j < i → ¬ (s.kiss[j].valid = true ∧ s.kiss[j].code = s.wordAt 0x10C)) →
          st.code.toNat = 4 + s.kiss[i].cls.toNat)
      ∧ ((∀ i : Fin 4, ¬ (s.kiss[i].valid = true ∧ s.kiss[i].code = s.wordAt 0x10C)) → st.code = 7))
    ∧ (s.byteAt 0x101 ≠ 0 → ∃ t, exec .desResp s = .next t ∧ t.status = .success
      ∧ ∀ k, exec .desResp { s with kiss := k } = .next { t with kiss := k })

/-- R88, R89: an accepted response writes the parsed frame, the clock offset and the round-trip delay, as signed 64-bit
values that are never truncated. -/
def Obligations.DesRespComputesOffsetAndDelay : Prop :=
  ∀ s : State, s.len.toNat = 48 → s.tsAt 0x118 = s.opa → (s.byteAt 0x100).extractLsb' 3 3 = (4 : BitVec 3) →
    (s.byteAt 0x100).extractLsb' 0 3 = (4 : BitVec 3) → s.byteAt 0x101 ≠ 0 →
    let t1 := s.opa
    let t2 := s.tsAt 0x120
    let t3 := s.tsAt 0x128
    let t4 := s.opb
    ∃ t, exec .desResp s = .next t
      ∧ t.offsetMs.toInt = tquot
          ((sres32 (t2.sec.toNat - t1.sec.toNat) + sres32 (t3.sec.toNat - t4.sec.toNat)) * 1000
            + tquot ((t2.frac.toNat - t1.frac.toNat) + (t3.frac.toNat - t4.frac.toNat)) 4295000) 2
      ∧ t.delayMs.toInt =
          (sres32 (t4.sec.toNat - t1.sec.toNat) - sres32 (t3.sec.toNat - t2.sec.toNat)) * 1000
            + tquot ((t4.frac.toNat - t1.frac.toNat) - (t3.frac.toNat - t2.frac.toNat)) 4295000
      ∧ t = { s with
          p := { lvm := s.byteAt 0x100, stratum := s.byteAt 0x101, refid := s.wordAt 0x10C,
                 org := s.tsAt 0x118, rcv := s.tsAt 0x120, xmt := s.tsAt 0x128 }
          offsetMs := t.offsetMs, delayMs := t.delayMs, status := .success, lastop := 0x12 }

/-- R90: the ranges of the offset and the delay, for every four Timestamps. -/
def Obligations.OffsetAndDelayRanges : Prop :=
  ∀ t1 t2 t3 t4 : Timestamp,
    -4294967297999 ≤ offsetTwice 4295000 t1 t2 t3 t4 ∧ offsetTwice 4295000 t1 t2 t3 t4 ≤ 4294967297999
      ∧ -2147483648999 ≤ clockOffset 4295000 t1 t2 t3 t4 ∧ clockOffset 4295000 t1 t2 t3 t4 ≤ 2147483648999
      ∧ -4294967296999 ≤ roundTripDelay 4295000 t1 t2 t3 t4 ∧ roundTripDelay 4295000 t1 t2 t3 t4 ≤ 4294967296999

/-- R93: `SER_RESP`, opcode 0x13. -/
def Obligations.SerRespBuildsResponseFrame : Prop :=
  decode 0x00000013 = .ok .serResp ∧ ∀ s : State,
    (48 ≤ s.len.toNat → ∃ t, exec .serResp s = .next t
      ∧ t.byteAt 0x100 = 0x24 ∧ t.byteAt 0x101 = s.opx.extractLsb' 0 8
      ∧ (∀ n, (2 ≤ n ∧ n ≤ 11) ∨ (16 ≤ n ∧ n ≤ 23) → t.byteAt (0x100 + n) = 0)
      ∧ t.wordAt 0x10C = s.opw ∧ t.tsAt 0x118 = s.opa ∧ t.tsAt 0x120 = s.opb ∧ t.tsAt 0x128 = s.opc
      ∧ (∀ a, a < 0x100 ∨ 0x12F < a → t.byteAt a = s.byteAt a)
      ∧ t = { s with mem := t.mem, status := .success, lastop := 0x13 })
    ∧ (s.len.toNat < 48 → exec .serResp s = .next { s with status := .badParameter, lastop := 0x13 })

/-- R94: a response echoes the request's transmit time bit for bit: bytes 24 to 31 of what `SER_RESP` builds equal bytes 40
to 47 of the frame `DES_REQ` parsed. -/
def Obligations.ResponseEchoesTransmitBytes : Prop :=
  ∀ s : State, s.len.toNat = 48 → ∃ u, exec .desReq s = .next u ∧ u.status = .success
    ∧ ∀ u', u'.opa = u.p.xmt → 48 ≤ u'.len.toNat → ∃ t, exec .serResp u' = .next t ∧ t.status = .success
      ∧ ∀ n, n < 8 → t.byteAt (0x118 + n) = s.byteAt (0x128 + n)

/-- R97, R95: a response built by `SER_RESP` from the as-sent time and a nonzero stratum, handed to `DES_RESP` with that same
time in `OPA` and any receive time in `OPB`, ends with `Success`, delivers `P_ORG = OPA`, and its offset has the sign of
`twice` of R88 outside −1 to 1. -/
def Obligations.ResponseAcceptedEndToEnd : Prop :=
  ∀ (s : State) (t4 : Timestamp), s.len.toNat = 48 → s.opx.extractLsb' 0 8 ≠ (0 : BitVec 8) →
    ∃ u t : State, exec .serResp s = .next u ∧ exec .desResp { u with opb := t4 } = .next t
      ∧ t.status = .success ∧ t.p.org = s.opa ∧ t.p.rcv = s.opb ∧ t.p.xmt = s.opc
      ∧ (0 < t.offsetMs.toInt ↔ 2 ≤ offsetTwice 4295000 s.opa s.opb s.opc t4)
      ∧ (t.offsetMs.toInt < 0 ↔ offsetTwice 4295000 s.opa s.opb s.opc t4 ≤ -2)
end

