-- ==== Sys2Proof/Laws/AddressMap.lean ====
section
/-! SUPPORT. The offset map of spec R38: every row is found at its own offset, and nothing else is found. -/

namespace Sys2Proof.Machine

/-- No two rows share an offset: each row is what its offset finds. -/
theorem regAt_row : ∀ row ∈ registerMap, regAt row.1 = some row.2 := by decide

/-- What an offset finds is a row of the map. -/
theorem mem_of_regAt (off : Nat) (r : Reg) (h : regAt off = some r) : (off, r) ∈ registerMap := by
  rw [regAt, List.lookup_eq_some_iff] at h
  obtain ⟨l1, l2, h, -⟩ := h
  rw [h]
  simp

/-- An offset finds nothing exactly when no row lists it. -/
theorem regAt_none_iff (off : Nat) : regAt off = none ↔ off ∉ registerMap.map Prod.fst := by
  rw [regAt, List.lookup_eq_none_iff]
  simp only [List.mem_map, Prod.exists, exists_and_right, exists_eq_right, not_exists, Prod.forall, bne_iff_ne]
  exact ⟨fun h r hr => h off r hr rfl, fun h a r hr e => h r (e ▸ hr)⟩

/-- `CMD` stands at offset 0 and nowhere else. -/
theorem regAt_cmd_iff (off : Nat) : regAt off = some .cmd ↔ off = 0x000 := by
  constructor
  · intro h
    have := mem_of_regAt off .cmd h
    revert this
    simp [registerMap, operandRows, resultRows, kissRows]
  · rintro rfl; rfl

end Sys2Proof.Machine
end

