-- ==== Sys2Proof/Laws/Arith.lean ====
section
/-! SUPPORT. What the arithmetic of the commands can give (spec R64 to R68, R88 to R90). -/

namespace Sys2Proof.Machine

@[simp] theorem hw_pktSize : hw.pktSize = 48 := rfl
@[simp] theorem hw_offLvm : hw.offLvm = 0 := rfl
@[simp] theorem hw_offStratum : hw.offStratum = 1 := rfl
@[simp] theorem hw_offRefid : hw.offRefid = 12 := rfl
@[simp] theorem hw_offOrigin : hw.offOrigin = 24 := rfl
@[simp] theorem hw_offReceive : hw.offReceive = 32 := rfl
@[simp] theorem hw_offTransmit : hw.offTransmit = 40 := rfl
@[simp] theorem hw_fracPerMs : hw.fracPerMs = 4295000 := rfl
@[simp] theorem hw_epochOffset : hw.epochOffset = 2208988800 := rfl
@[simp] theorem hw_nowFailStatus : hw.nowFailStatus = .timeNotSupported := rfl
@[simp] theorem hw_version : hw.version = 4 := rfl
@[simp] theorem hw_versionShift : hw.versionShift = 3 := rfl
@[simp] theorem hw_modeClient : hw.modeClient = 3 := rfl
@[simp] theorem hw_modeServer : hw.modeServer = 4 := rfl
@[simp] theorem hw_kissN : hw.kissN = 4 := rfl
@[simp] theorem hw_corrBits : hw.corrBits = 16 := rfl

/-- The values this hardware takes meet the constraints of R6. -/
theorem hw_valid : hw.valid = true := by decide

/-- The signed minimal residue lies in −2^31 to 2^31 − 1 (R65). -/
theorem sres32_range (x : Int) : -2147483648 ≤ sres32 x ∧ sres32 x ≤ 2147483647 := by
  simp only [sres32]
  split <;> omega

/-- It differs from its argument by a multiple of 2^32 (R65). -/
theorem sres32_dvd (x : Int) : (4294967296 : Int) ∣ sres32 x - x := by
  simp only [sres32]
  split <;> omega

/-- A value already in the range is its own residue (R65). -/
theorem sres32_of_range (x : Int) (h1 : -2147483648 ≤ x) (h2 : x < 2147483648) : sres32 x = x := by
  simp only [sres32]
  split <;> omega

/-- Two arguments that agree modulo 2^32 have the same residue (R65). -/
theorem sres32_congr (x y : Int) (h : x % 4294967296 = y % 4294967296) : sres32 x = sres32 y := by
  simp only [sres32, h]

/-- A quotient truncated toward zero is bracketed by its divisor (R66). -/
theorem tquot_bounds (a b : Int) (hb : 0 < b) :
    (0 ≤ a → b * tquot a b ≤ a ∧ a < b * tquot a b + b ∧ 0 ≤ tquot a b)
      ∧ (a < 0 → a ≤ b * tquot a b ∧ b * tquot a b - b < a ∧ tquot a b ≤ 0) := by
  have h1 := Int.mul_ediv_add_emod a b
  have h2 := Int.emod_nonneg a hb.ne'
  have h3 := Int.emod_lt_of_pos a hb
  have h4 := Int.mul_ediv_add_emod (-a) b
  have h5 := Int.emod_nonneg (-a) hb.ne'
  have h6 := Int.emod_lt_of_pos (-a) hb
  constructor
  · intro ha
    have h7 := Int.ediv_nonneg ha hb.le
    simp only [tquot, ha, if_true]
    omega
  · intro ha
    have h7 := Int.ediv_nonneg (by omega : 0 ≤ -a) hb.le
    simp only [tquot, show ¬ 0 ≤ a by omega, if_false, Int.mul_neg]
    omega

/-- `tquot` is odd in its first argument (R66). -/
theorem tquot_neg (a b : Int) : tquot (-a) b = -tquot a b := by
  simp only [tquot, Int.neg_neg]
  rcases Int.lt_trichotomy a 0 with h | rfl | h
  · rw [if_pos (by omega), if_neg (by omega), Int.neg_neg]
  · simp
  · rw [if_neg (by omega), if_pos (by omega)]

/-- The fraction unit as milliseconds is an exact quotient (R67). -/
theorem fracToMs_toNat (k : Nat) (f : Word) : (fracToMs k f).toNat = f.toNat / k := by
  have h : f.toNat / k < 2 ^ 32 := Nat.lt_of_le_of_lt (Nat.div_le_self _ _) f.isLt
  simp only [fracToMs, BitVec.toNat_ofNat, Nat.mod_eq_of_lt h]

/-- The fraction of a millisecond count is an exact product for `m < 1000` (R67, R68). -/
theorem msToFrac_toNat (k : Nat) (m : Word) (hk : k ≤ 4299266) (hm : m.toNat < 1000) :
    (msToFrac k m).toNat = m.toNat * k := by
  have h : m.toNat * k ≤ 999 * 4299266 := Nat.mul_le_mul (by omega) hk
  simp only [msToFrac, BitVec.toNat_ofNat]
  omega

/-- A fraction difference fits 33 bits, signed (R88). -/
theorem fracDiff_range (a b : Word) : -4294967295 ≤ fracDiff a b ∧ fracDiff a b ≤ 4294967295 := by
  simp only [fracDiff]
  omega

/-- `i64` keeps every value of the signed 64-bit range (R90). -/
theorem toInt_i64 (x : Int) (h1 : -9223372036854775808 ≤ x) (h2 : x < 9223372036854775808) : (i64 x).toInt = x := by
  simp only [i64]
  rw [BitVec.toInt_ofInt, Int.bmod_eq_of_le (by omega) (by omega)]

/-- Host seconds to protocol seconds, modulo 2^32 (R64). -/
theorem toProtocolSeconds_toNat (sec : Word) : (toProtocolSeconds sec).toNat = (sec.toNat + 2208988800) % 2 ^ 32 := by
  simp [toProtocolSeconds]

/-- The as-sent time keeps the seconds (R79). -/
theorem asSent_sec (t : Timestamp) (v : Word) : (asSent t v).sec = t.sec := rfl

/-- The as-sent time takes the upper half of the correlator into the low half of the fraction (R79). -/
theorem asSent_frac (t : Timestamp) (v : Word) :
    (asSent t v).frac = t.frac ||| (v.extractLsb' 16 16).setWidth 32 := by
  have h : v >>> 16 = (v.extractLsb' 16 16).setWidth 32 := by
    ext i hi
    simp only [BitVec.getElem_ushiftRight, BitVec.getElem_setWidth, BitVec.getLsbD_extractLsb']
    by_cases hj : i < 16
    · simp [hj]
    · simp only [hj, decide_false, Bool.false_and]
      exact BitVec.getLsbD_of_ge _ _ (by omega)
  rw [← h]
  rfl

end Sys2Proof.Machine
end

