-- ==== Sys2Proof/Laws/State.lean ====
section
/-! SUPPORT. One lemma per field of `State` per named update: what the update leaves in that field. -/

namespace Sys2Proof.Machine

/-! ### `State.setMem` -/

@[simp] theorem State.setMem_opa (s : State) (m : Memory) : (s.setMem m).opa = s.opa := rfl
@[simp] theorem State.setMem_opb (s : State) (m : Memory) : (s.setMem m).opb = s.opb := rfl
@[simp] theorem State.setMem_opc (s : State) (m : Memory) : (s.setMem m).opc = s.opc := rfl
@[simp] theorem State.setMem_opw (s : State) (m : Memory) : (s.setMem m).opw = s.opw := rfl
@[simp] theorem State.setMem_opx (s : State) (m : Memory) : (s.setMem m).opx = s.opx := rfl
@[simp] theorem State.setMem_len (s : State) (m : Memory) : (s.setMem m).len = s.len := rfl
@[simp] theorem State.setMem_res (s : State) (m : Memory) : (s.setMem m).res = s.res := rfl
@[simp] theorem State.setMem_resW (s : State) (m : Memory) : (s.setMem m).resW = s.resW := rfl
@[simp] theorem State.setMem_p (s : State) (m : Memory) : (s.setMem m).p = s.p := rfl
@[simp] theorem State.setMem_offsetMs (s : State) (m : Memory) : (s.setMem m).offsetMs = s.offsetMs := rfl
@[simp] theorem State.setMem_delayMs (s : State) (m : Memory) : (s.setMem m).delayMs = s.delayMs := rfl
@[simp] theorem State.setMem_status (s : State) (m : Memory) : (s.setMem m).status = s.status := rfl
@[simp] theorem State.setMem_lastop (s : State) (m : Memory) : (s.setMem m).lastop = s.lastop := rfl
@[simp] theorem State.setMem_illcmd (s : State) (m : Memory) : (s.setMem m).illcmd = s.illcmd := rfl
@[simp] theorem State.setMem_accerr (s : State) (m : Memory) : (s.setMem m).accerr = s.accerr := rfl
@[simp] theorem State.setMem_kiss (s : State) (m : Memory) : (s.setMem m).kiss = s.kiss := rfl
@[simp] theorem State.setMem_mem (s : State) (m : Memory) : (s.setMem m).mem = m := rfl
@[simp] theorem State.setMem_resetPin (s : State) (m : Memory) : (s.setMem m).resetPin = s.resetPin := rfl
@[simp] theorem State.setMem_ht (s : State) (m : Memory) : (s.setMem m).ht = s.ht := rfl
@[simp] theorem State.setMem_script (s : State) (m : Memory) : (s.setMem m).script = s.script := rfl
@[simp] theorem State.setMem_rdata (s : State) (m : Memory) : (s.setMem m).rdata = s.rdata := rfl
@[simp] theorem State.setMem_clkReads (s : State) (m : Memory) : (s.setMem m).clkReads = s.clkReads := rfl
@[simp] theorem State.setMem_resets (s : State) (m : Memory) : (s.setMem m).resets = s.resets := rfl

/-! ### `State.setRes` -/

@[simp] theorem State.setRes_opa (s : State) (t : Timestamp) : (s.setRes t).opa = s.opa := rfl
@[simp] theorem State.setRes_opb (s : State) (t : Timestamp) : (s.setRes t).opb = s.opb := rfl
@[simp] theorem State.setRes_opc (s : State) (t : Timestamp) : (s.setRes t).opc = s.opc := rfl
@[simp] theorem State.setRes_opw (s : State) (t : Timestamp) : (s.setRes t).opw = s.opw := rfl
@[simp] theorem State.setRes_opx (s : State) (t : Timestamp) : (s.setRes t).opx = s.opx := rfl
@[simp] theorem State.setRes_len (s : State) (t : Timestamp) : (s.setRes t).len = s.len := rfl
@[simp] theorem State.setRes_res (s : State) (t : Timestamp) : (s.setRes t).res = t := rfl
@[simp] theorem State.setRes_resW (s : State) (t : Timestamp) : (s.setRes t).resW = s.resW := rfl
@[simp] theorem State.setRes_p (s : State) (t : Timestamp) : (s.setRes t).p = s.p := rfl
@[simp] theorem State.setRes_offsetMs (s : State) (t : Timestamp) : (s.setRes t).offsetMs = s.offsetMs := rfl
@[simp] theorem State.setRes_delayMs (s : State) (t : Timestamp) : (s.setRes t).delayMs = s.delayMs := rfl
@[simp] theorem State.setRes_status (s : State) (t : Timestamp) : (s.setRes t).status = s.status := rfl
@[simp] theorem State.setRes_lastop (s : State) (t : Timestamp) : (s.setRes t).lastop = s.lastop := rfl
@[simp] theorem State.setRes_illcmd (s : State) (t : Timestamp) : (s.setRes t).illcmd = s.illcmd := rfl
@[simp] theorem State.setRes_accerr (s : State) (t : Timestamp) : (s.setRes t).accerr = s.accerr := rfl
@[simp] theorem State.setRes_kiss (s : State) (t : Timestamp) : (s.setRes t).kiss = s.kiss := rfl
@[simp] theorem State.setRes_mem (s : State) (t : Timestamp) : (s.setRes t).mem = s.mem := rfl
@[simp] theorem State.setRes_resetPin (s : State) (t : Timestamp) : (s.setRes t).resetPin = s.resetPin := rfl
@[simp] theorem State.setRes_ht (s : State) (t : Timestamp) : (s.setRes t).ht = s.ht := rfl
@[simp] theorem State.setRes_script (s : State) (t : Timestamp) : (s.setRes t).script = s.script := rfl
@[simp] theorem State.setRes_rdata (s : State) (t : Timestamp) : (s.setRes t).rdata = s.rdata := rfl
@[simp] theorem State.setRes_clkReads (s : State) (t : Timestamp) : (s.setRes t).clkReads = s.clkReads := rfl
@[simp] theorem State.setRes_resets (s : State) (t : Timestamp) : (s.setRes t).resets = s.resets := rfl

/-! ### `State.setResW` -/

@[simp] theorem State.setResW_opa (s : State) (v : Word) : (s.setResW v).opa = s.opa := rfl
@[simp] theorem State.setResW_opb (s : State) (v : Word) : (s.setResW v).opb = s.opb := rfl
@[simp] theorem State.setResW_opc (s : State) (v : Word) : (s.setResW v).opc = s.opc := rfl
@[simp] theorem State.setResW_opw (s : State) (v : Word) : (s.setResW v).opw = s.opw := rfl
@[simp] theorem State.setResW_opx (s : State) (v : Word) : (s.setResW v).opx = s.opx := rfl
@[simp] theorem State.setResW_len (s : State) (v : Word) : (s.setResW v).len = s.len := rfl
@[simp] theorem State.setResW_res (s : State) (v : Word) : (s.setResW v).res = s.res := rfl
@[simp] theorem State.setResW_resW (s : State) (v : Word) : (s.setResW v).resW = v := rfl
@[simp] theorem State.setResW_p (s : State) (v : Word) : (s.setResW v).p = s.p := rfl
@[simp] theorem State.setResW_offsetMs (s : State) (v : Word) : (s.setResW v).offsetMs = s.offsetMs := rfl
@[simp] theorem State.setResW_delayMs (s : State) (v : Word) : (s.setResW v).delayMs = s.delayMs := rfl
@[simp] theorem State.setResW_status (s : State) (v : Word) : (s.setResW v).status = s.status := rfl
@[simp] theorem State.setResW_lastop (s : State) (v : Word) : (s.setResW v).lastop = s.lastop := rfl
@[simp] theorem State.setResW_illcmd (s : State) (v : Word) : (s.setResW v).illcmd = s.illcmd := rfl
@[simp] theorem State.setResW_accerr (s : State) (v : Word) : (s.setResW v).accerr = s.accerr := rfl
@[simp] theorem State.setResW_kiss (s : State) (v : Word) : (s.setResW v).kiss = s.kiss := rfl
@[simp] theorem State.setResW_mem (s : State) (v : Word) : (s.setResW v).mem = s.mem := rfl
@[simp] theorem State.setResW_resetPin (s : State) (v : Word) : (s.setResW v).resetPin = s.resetPin := rfl
@[simp] theorem State.setResW_ht (s : State) (v : Word) : (s.setResW v).ht = s.ht := rfl
@[simp] theorem State.setResW_script (s : State) (v : Word) : (s.setResW v).script = s.script := rfl
@[simp] theorem State.setResW_rdata (s : State) (v : Word) : (s.setResW v).rdata = s.rdata := rfl
@[simp] theorem State.setResW_clkReads (s : State) (v : Word) : (s.setResW v).clkReads = s.clkReads := rfl
@[simp] theorem State.setResW_resets (s : State) (v : Word) : (s.setResW v).resets = s.resets := rfl

/-! ### `State.setFrame` -/

@[simp] theorem State.setFrame_opa (s : State) (f : Frame) : (s.setFrame f).opa = s.opa := rfl
@[simp] theorem State.setFrame_opb (s : State) (f : Frame) : (s.setFrame f).opb = s.opb := rfl
@[simp] theorem State.setFrame_opc (s : State) (f : Frame) : (s.setFrame f).opc = s.opc := rfl
@[simp] theorem State.setFrame_opw (s : State) (f : Frame) : (s.setFrame f).opw = s.opw := rfl
@[simp] theorem State.setFrame_opx (s : State) (f : Frame) : (s.setFrame f).opx = s.opx := rfl
@[simp] theorem State.setFrame_len (s : State) (f : Frame) : (s.setFrame f).len = s.len := rfl
@[simp] theorem State.setFrame_res (s : State) (f : Frame) : (s.setFrame f).res = s.res := rfl
@[simp] theorem State.setFrame_resW (s : State) (f : Frame) : (s.setFrame f).resW = s.resW := rfl
@[simp] theorem State.setFrame_p (s : State) (f : Frame) : (s.setFrame f).p = f := rfl
@[simp] theorem State.setFrame_offsetMs (s : State) (f : Frame) : (s.setFrame f).offsetMs = s.offsetMs := rfl
@[simp] theorem State.setFrame_delayMs (s : State) (f : Frame) : (s.setFrame f).delayMs = s.delayMs := rfl
@[simp] theorem State.setFrame_status (s : State) (f : Frame) : (s.setFrame f).status = s.status := rfl
@[simp] theorem State.setFrame_lastop (s : State) (f : Frame) : (s.setFrame f).lastop = s.lastop := rfl
@[simp] theorem State.setFrame_illcmd (s : State) (f : Frame) : (s.setFrame f).illcmd = s.illcmd := rfl
@[simp] theorem State.setFrame_accerr (s : State) (f : Frame) : (s.setFrame f).accerr = s.accerr := rfl
@[simp] theorem State.setFrame_kiss (s : State) (f : Frame) : (s.setFrame f).kiss = s.kiss := rfl
@[simp] theorem State.setFrame_mem (s : State) (f : Frame) : (s.setFrame f).mem = s.mem := rfl
@[simp] theorem State.setFrame_resetPin (s : State) (f : Frame) : (s.setFrame f).resetPin = s.resetPin := rfl
@[simp] theorem State.setFrame_ht (s : State) (f : Frame) : (s.setFrame f).ht = s.ht := rfl
@[simp] theorem State.setFrame_script (s : State) (f : Frame) : (s.setFrame f).script = s.script := rfl
@[simp] theorem State.setFrame_rdata (s : State) (f : Frame) : (s.setFrame f).rdata = s.rdata := rfl
@[simp] theorem State.setFrame_clkReads (s : State) (f : Frame) : (s.setFrame f).clkReads = s.clkReads := rfl
@[simp] theorem State.setFrame_resets (s : State) (f : Frame) : (s.setFrame f).resets = s.resets := rfl

/-! ### `State.setOffsetDelay` -/

@[simp] theorem State.setOffsetDelay_opa (s : State) (off dly : BitVec 64) : (s.setOffsetDelay off dly).opa = s.opa := rfl
@[simp] theorem State.setOffsetDelay_opb (s : State) (off dly : BitVec 64) : (s.setOffsetDelay off dly).opb = s.opb := rfl
@[simp] theorem State.setOffsetDelay_opc (s : State) (off dly : BitVec 64) : (s.setOffsetDelay off dly).opc = s.opc := rfl
@[simp] theorem State.setOffsetDelay_opw (s : State) (off dly : BitVec 64) : (s.setOffsetDelay off dly).opw = s.opw := rfl
@[simp] theorem State.setOffsetDelay_opx (s : State) (off dly : BitVec 64) : (s.setOffsetDelay off dly).opx = s.opx := rfl
@[simp] theorem State.setOffsetDelay_len (s : State) (off dly : BitVec 64) : (s.setOffsetDelay off dly).len = s.len := rfl
@[simp] theorem State.setOffsetDelay_res (s : State) (off dly : BitVec 64) : (s.setOffsetDelay off dly).res = s.res := rfl
@[simp] theorem State.setOffsetDelay_resW (s : State) (off dly : BitVec 64) : (s.setOffsetDelay off dly).resW = s.resW := rfl
@[simp] theorem State.setOffsetDelay_p (s : State) (off dly : BitVec 64) : (s.setOffsetDelay off dly).p = s.p := rfl
@[simp] theorem State.setOffsetDelay_offsetMs (s : State) (off dly : BitVec 64) : (s.setOffsetDelay off dly).offsetMs = off := rfl
@[simp] theorem State.setOffsetDelay_delayMs (s : State) (off dly : BitVec 64) : (s.setOffsetDelay off dly).delayMs = dly := rfl
@[simp] theorem State.setOffsetDelay_status (s : State) (off dly : BitVec 64) : (s.setOffsetDelay off dly).status = s.status := rfl
@[simp] theorem State.setOffsetDelay_lastop (s : State) (off dly : BitVec 64) : (s.setOffsetDelay off dly).lastop = s.lastop := rfl
@[simp] theorem State.setOffsetDelay_illcmd (s : State) (off dly : BitVec 64) : (s.setOffsetDelay off dly).illcmd = s.illcmd := rfl
@[simp] theorem State.setOffsetDelay_accerr (s : State) (off dly : BitVec 64) : (s.setOffsetDelay off dly).accerr = s.accerr := rfl
@[simp] theorem State.setOffsetDelay_kiss (s : State) (off dly : BitVec 64) : (s.setOffsetDelay off dly).kiss = s.kiss := rfl
@[simp] theorem State.setOffsetDelay_mem (s : State) (off dly : BitVec 64) : (s.setOffsetDelay off dly).mem = s.mem := rfl
@[simp] theorem State.setOffsetDelay_resetPin (s : State) (off dly : BitVec 64) : (s.setOffsetDelay off dly).resetPin = s.resetPin := rfl
@[simp] theorem State.setOffsetDelay_ht (s : State) (off dly : BitVec 64) : (s.setOffsetDelay off dly).ht = s.ht := rfl
@[simp] theorem State.setOffsetDelay_script (s : State) (off dly : BitVec 64) : (s.setOffsetDelay off dly).script = s.script := rfl
@[simp] theorem State.setOffsetDelay_rdata (s : State) (off dly : BitVec 64) : (s.setOffsetDelay off dly).rdata = s.rdata := rfl
@[simp] theorem State.setOffsetDelay_clkReads (s : State) (off dly : BitVec 64) : (s.setOffsetDelay off dly).clkReads = s.clkReads := rfl
@[simp] theorem State.setOffsetDelay_resets (s : State) (off dly : BitVec 64) : (s.setOffsetDelay off dly).resets = s.resets := rfl

/-! ### `State.reply` -/

@[simp] theorem State.reply_opa (s : State) (v : Word) : (s.reply v).opa = s.opa := rfl
@[simp] theorem State.reply_opb (s : State) (v : Word) : (s.reply v).opb = s.opb := rfl
@[simp] theorem State.reply_opc (s : State) (v : Word) : (s.reply v).opc = s.opc := rfl
@[simp] theorem State.reply_opw (s : State) (v : Word) : (s.reply v).opw = s.opw := rfl
@[simp] theorem State.reply_opx (s : State) (v : Word) : (s.reply v).opx = s.opx := rfl
@[simp] theorem State.reply_len (s : State) (v : Word) : (s.reply v).len = s.len := rfl
@[simp] theorem State.reply_res (s : State) (v : Word) : (s.reply v).res = s.res := rfl
@[simp] theorem State.reply_resW (s : State) (v : Word) : (s.reply v).resW = s.resW := rfl
@[simp] theorem State.reply_p (s : State) (v : Word) : (s.reply v).p = s.p := rfl
@[simp] theorem State.reply_offsetMs (s : State) (v : Word) : (s.reply v).offsetMs = s.offsetMs := rfl
@[simp] theorem State.reply_delayMs (s : State) (v : Word) : (s.reply v).delayMs = s.delayMs := rfl
@[simp] theorem State.reply_status (s : State) (v : Word) : (s.reply v).status = s.status := rfl
@[simp] theorem State.reply_lastop (s : State) (v : Word) : (s.reply v).lastop = s.lastop := rfl
@[simp] theorem State.reply_illcmd (s : State) (v : Word) : (s.reply v).illcmd = s.illcmd := rfl
@[simp] theorem State.reply_accerr (s : State) (v : Word) : (s.reply v).accerr = s.accerr := rfl
@[simp] theorem State.reply_kiss (s : State) (v : Word) : (s.reply v).kiss = s.kiss := rfl
@[simp] theorem State.reply_mem (s : State) (v : Word) : (s.reply v).mem = s.mem := rfl
@[simp] theorem State.reply_resetPin (s : State) (v : Word) : (s.reply v).resetPin = s.resetPin := rfl
@[simp] theorem State.reply_ht (s : State) (v : Word) : (s.reply v).ht = s.ht := rfl
@[simp] theorem State.reply_script (s : State) (v : Word) : (s.reply v).script = s.script := rfl
@[simp] theorem State.reply_rdata (s : State) (v : Word) : (s.reply v).rdata = v := rfl
@[simp] theorem State.reply_clkReads (s : State) (v : Word) : (s.reply v).clkReads = s.clkReads := rfl
@[simp] theorem State.reply_resets (s : State) (v : Word) : (s.reply v).resets = s.resets := rfl

/-! ### `State.setScript` -/

@[simp] theorem State.setScript_opa (s : State) (es : List Event) : (s.setScript es).opa = s.opa := rfl
@[simp] theorem State.setScript_opb (s : State) (es : List Event) : (s.setScript es).opb = s.opb := rfl
@[simp] theorem State.setScript_opc (s : State) (es : List Event) : (s.setScript es).opc = s.opc := rfl
@[simp] theorem State.setScript_opw (s : State) (es : List Event) : (s.setScript es).opw = s.opw := rfl
@[simp] theorem State.setScript_opx (s : State) (es : List Event) : (s.setScript es).opx = s.opx := rfl
@[simp] theorem State.setScript_len (s : State) (es : List Event) : (s.setScript es).len = s.len := rfl
@[simp] theorem State.setScript_res (s : State) (es : List Event) : (s.setScript es).res = s.res := rfl
@[simp] theorem State.setScript_resW (s : State) (es : List Event) : (s.setScript es).resW = s.resW := rfl
@[simp] theorem State.setScript_p (s : State) (es : List Event) : (s.setScript es).p = s.p := rfl
@[simp] theorem State.setScript_offsetMs (s : State) (es : List Event) : (s.setScript es).offsetMs = s.offsetMs := rfl
@[simp] theorem State.setScript_delayMs (s : State) (es : List Event) : (s.setScript es).delayMs = s.delayMs := rfl
@[simp] theorem State.setScript_status (s : State) (es : List Event) : (s.setScript es).status = s.status := rfl
@[simp] theorem State.setScript_lastop (s : State) (es : List Event) : (s.setScript es).lastop = s.lastop := rfl
@[simp] theorem State.setScript_illcmd (s : State) (es : List Event) : (s.setScript es).illcmd = s.illcmd := rfl
@[simp] theorem State.setScript_accerr (s : State) (es : List Event) : (s.setScript es).accerr = s.accerr := rfl
@[simp] theorem State.setScript_kiss (s : State) (es : List Event) : (s.setScript es).kiss = s.kiss := rfl
@[simp] theorem State.setScript_mem (s : State) (es : List Event) : (s.setScript es).mem = s.mem := rfl
@[simp] theorem State.setScript_resetPin (s : State) (es : List Event) : (s.setScript es).resetPin = s.resetPin := rfl
@[simp] theorem State.setScript_ht (s : State) (es : List Event) : (s.setScript es).ht = s.ht := rfl
@[simp] theorem State.setScript_script (s : State) (es : List Event) : (s.setScript es).script = es := rfl
@[simp] theorem State.setScript_rdata (s : State) (es : List Event) : (s.setScript es).rdata = s.rdata := rfl
@[simp] theorem State.setScript_clkReads (s : State) (es : List Event) : (s.setScript es).clkReads = s.clkReads := rfl
@[simp] theorem State.setScript_resets (s : State) (es : List Event) : (s.setScript es).resets = s.resets := rfl

/-! ### `State.presentClock` -/

@[simp] theorem State.presentClock_opa (s : State) (c : Config.ClockSample) : (s.presentClock c).opa = s.opa := rfl
@[simp] theorem State.presentClock_opb (s : State) (c : Config.ClockSample) : (s.presentClock c).opb = s.opb := rfl
@[simp] theorem State.presentClock_opc (s : State) (c : Config.ClockSample) : (s.presentClock c).opc = s.opc := rfl
@[simp] theorem State.presentClock_opw (s : State) (c : Config.ClockSample) : (s.presentClock c).opw = s.opw := rfl
@[simp] theorem State.presentClock_opx (s : State) (c : Config.ClockSample) : (s.presentClock c).opx = s.opx := rfl
@[simp] theorem State.presentClock_len (s : State) (c : Config.ClockSample) : (s.presentClock c).len = s.len := rfl
@[simp] theorem State.presentClock_res (s : State) (c : Config.ClockSample) : (s.presentClock c).res = s.res := rfl
@[simp] theorem State.presentClock_resW (s : State) (c : Config.ClockSample) : (s.presentClock c).resW = s.resW := rfl
@[simp] theorem State.presentClock_p (s : State) (c : Config.ClockSample) : (s.presentClock c).p = s.p := rfl
@[simp] theorem State.presentClock_offsetMs (s : State) (c : Config.ClockSample) : (s.presentClock c).offsetMs = s.offsetMs := rfl
@[simp] theorem State.presentClock_delayMs (s : State) (c : Config.ClockSample) : (s.presentClock c).delayMs = s.delayMs := rfl
@[simp] theorem State.presentClock_status (s : State) (c : Config.ClockSample) : (s.presentClock c).status = s.status := rfl
@[simp] theorem State.presentClock_lastop (s : State) (c : Config.ClockSample) : (s.presentClock c).lastop = s.lastop := rfl
@[simp] theorem State.presentClock_illcmd (s : State) (c : Config.ClockSample) : (s.presentClock c).illcmd = s.illcmd := rfl
@[simp] theorem State.presentClock_accerr (s : State) (c : Config.ClockSample) : (s.presentClock c).accerr = s.accerr := rfl
@[simp] theorem State.presentClock_kiss (s : State) (c : Config.ClockSample) : (s.presentClock c).kiss = s.kiss := rfl
@[simp] theorem State.presentClock_mem (s : State) (c : Config.ClockSample) : (s.presentClock c).mem = s.mem := rfl
@[simp] theorem State.presentClock_resetPin (s : State) (c : Config.ClockSample) : (s.presentClock c).resetPin = s.resetPin := rfl
@[simp] theorem State.presentClock_ht (s : State) (c : Config.ClockSample) : (s.presentClock c).ht = some c := rfl
@[simp] theorem State.presentClock_script (s : State) (c : Config.ClockSample) : (s.presentClock c).script = s.script := rfl
@[simp] theorem State.presentClock_rdata (s : State) (c : Config.ClockSample) : (s.presentClock c).rdata = s.rdata := rfl
@[simp] theorem State.presentClock_clkReads (s : State) (c : Config.ClockSample) : (s.presentClock c).clkReads = s.clkReads := rfl
@[simp] theorem State.presentClock_resets (s : State) (c : Config.ClockSample) : (s.presentClock c).resets = s.resets := rfl

/-! ### `State.clockTaken` -/

@[simp] theorem State.clockTaken_opa (s : State) : (s.clockTaken).opa = s.opa := rfl
@[simp] theorem State.clockTaken_opb (s : State) : (s.clockTaken).opb = s.opb := rfl
@[simp] theorem State.clockTaken_opc (s : State) : (s.clockTaken).opc = s.opc := rfl
@[simp] theorem State.clockTaken_opw (s : State) : (s.clockTaken).opw = s.opw := rfl
@[simp] theorem State.clockTaken_opx (s : State) : (s.clockTaken).opx = s.opx := rfl
@[simp] theorem State.clockTaken_len (s : State) : (s.clockTaken).len = s.len := rfl
@[simp] theorem State.clockTaken_res (s : State) : (s.clockTaken).res = s.res := rfl
@[simp] theorem State.clockTaken_resW (s : State) : (s.clockTaken).resW = s.resW := rfl
@[simp] theorem State.clockTaken_p (s : State) : (s.clockTaken).p = s.p := rfl
@[simp] theorem State.clockTaken_offsetMs (s : State) : (s.clockTaken).offsetMs = s.offsetMs := rfl
@[simp] theorem State.clockTaken_delayMs (s : State) : (s.clockTaken).delayMs = s.delayMs := rfl
@[simp] theorem State.clockTaken_status (s : State) : (s.clockTaken).status = s.status := rfl
@[simp] theorem State.clockTaken_lastop (s : State) : (s.clockTaken).lastop = s.lastop := rfl
@[simp] theorem State.clockTaken_illcmd (s : State) : (s.clockTaken).illcmd = s.illcmd := rfl
@[simp] theorem State.clockTaken_accerr (s : State) : (s.clockTaken).accerr = s.accerr := rfl
@[simp] theorem State.clockTaken_kiss (s : State) : (s.clockTaken).kiss = s.kiss := rfl
@[simp] theorem State.clockTaken_mem (s : State) : (s.clockTaken).mem = s.mem := rfl
@[simp] theorem State.clockTaken_resetPin (s : State) : (s.clockTaken).resetPin = s.resetPin := rfl
@[simp] theorem State.clockTaken_ht (s : State) : (s.clockTaken).ht = none := rfl
@[simp] theorem State.clockTaken_script (s : State) : (s.clockTaken).script = s.script := rfl
@[simp] theorem State.clockTaken_rdata (s : State) : (s.clockTaken).rdata = s.rdata := rfl
@[simp] theorem State.clockTaken_clkReads (s : State) : (s.clockTaken).clkReads = s.clkReads + 1 := rfl
@[simp] theorem State.clockTaken_resets (s : State) : (s.clockTaken).resets = s.resets := rfl

/-! ### `State.assertReset` -/

@[simp] theorem State.assertReset_opa (s : State) : (s.assertReset).opa = s.opa := rfl
@[simp] theorem State.assertReset_opb (s : State) : (s.assertReset).opb = s.opb := rfl
@[simp] theorem State.assertReset_opc (s : State) : (s.assertReset).opc = s.opc := rfl
@[simp] theorem State.assertReset_opw (s : State) : (s.assertReset).opw = s.opw := rfl
@[simp] theorem State.assertReset_opx (s : State) : (s.assertReset).opx = s.opx := rfl
@[simp] theorem State.assertReset_len (s : State) : (s.assertReset).len = s.len := rfl
@[simp] theorem State.assertReset_res (s : State) : (s.assertReset).res = s.res := rfl
@[simp] theorem State.assertReset_resW (s : State) : (s.assertReset).resW = s.resW := rfl
@[simp] theorem State.assertReset_p (s : State) : (s.assertReset).p = s.p := rfl
@[simp] theorem State.assertReset_offsetMs (s : State) : (s.assertReset).offsetMs = s.offsetMs := rfl
@[simp] theorem State.assertReset_delayMs (s : State) : (s.assertReset).delayMs = s.delayMs := rfl
@[simp] theorem State.assertReset_status (s : State) : (s.assertReset).status = s.status := rfl
@[simp] theorem State.assertReset_lastop (s : State) : (s.assertReset).lastop = s.lastop := rfl
@[simp] theorem State.assertReset_illcmd (s : State) : (s.assertReset).illcmd = s.illcmd := rfl
@[simp] theorem State.assertReset_accerr (s : State) : (s.assertReset).accerr = s.accerr := rfl
@[simp] theorem State.assertReset_kiss (s : State) : (s.assertReset).kiss = s.kiss := rfl
@[simp] theorem State.assertReset_mem (s : State) : (s.assertReset).mem = s.mem := rfl
@[simp] theorem State.assertReset_resetPin (s : State) : (s.assertReset).resetPin = true := rfl
@[simp] theorem State.assertReset_ht (s : State) : (s.assertReset).ht = s.ht := rfl
@[simp] theorem State.assertReset_script (s : State) : (s.assertReset).script = s.script := rfl
@[simp] theorem State.assertReset_rdata (s : State) : (s.assertReset).rdata = s.rdata := rfl
@[simp] theorem State.assertReset_clkReads (s : State) : (s.assertReset).clkReads = s.clkReads := rfl
@[simp] theorem State.assertReset_resets (s : State) : (s.assertReset).resets = s.resets := rfl

/-! ### `State.finish` -/

@[simp] theorem State.finish_opa (s : State) (i : Instr) (st : Status) : (s.finish i st).opa = s.opa := rfl
@[simp] theorem State.finish_opb (s : State) (i : Instr) (st : Status) : (s.finish i st).opb = s.opb := rfl
@[simp] theorem State.finish_opc (s : State) (i : Instr) (st : Status) : (s.finish i st).opc = s.opc := rfl
@[simp] theorem State.finish_opw (s : State) (i : Instr) (st : Status) : (s.finish i st).opw = s.opw := rfl
@[simp] theorem State.finish_opx (s : State) (i : Instr) (st : Status) : (s.finish i st).opx = s.opx := rfl
@[simp] theorem State.finish_len (s : State) (i : Instr) (st : Status) : (s.finish i st).len = s.len := rfl
@[simp] theorem State.finish_res (s : State) (i : Instr) (st : Status) : (s.finish i st).res = s.res := rfl
@[simp] theorem State.finish_resW (s : State) (i : Instr) (st : Status) : (s.finish i st).resW = s.resW := rfl
@[simp] theorem State.finish_p (s : State) (i : Instr) (st : Status) : (s.finish i st).p = s.p := rfl
@[simp] theorem State.finish_offsetMs (s : State) (i : Instr) (st : Status) : (s.finish i st).offsetMs = s.offsetMs := rfl
@[simp] theorem State.finish_delayMs (s : State) (i : Instr) (st : Status) : (s.finish i st).delayMs = s.delayMs := rfl
@[simp] theorem State.finish_status (s : State) (i : Instr) (st : Status) : (s.finish i st).status = st := rfl
@[simp] theorem State.finish_lastop (s : State) (i : Instr) (st : Status) : (s.finish i st).lastop = i.opcode := rfl
@[simp] theorem State.finish_illcmd (s : State) (i : Instr) (st : Status) : (s.finish i st).illcmd = s.illcmd := rfl
@[simp] theorem State.finish_accerr (s : State) (i : Instr) (st : Status) : (s.finish i st).accerr = s.accerr := rfl
@[simp] theorem State.finish_kiss (s : State) (i : Instr) (st : Status) : (s.finish i st).kiss = s.kiss := rfl
@[simp] theorem State.finish_mem (s : State) (i : Instr) (st : Status) : (s.finish i st).mem = s.mem := rfl
@[simp] theorem State.finish_resetPin (s : State) (i : Instr) (st : Status) : (s.finish i st).resetPin = s.resetPin := rfl
@[simp] theorem State.finish_ht (s : State) (i : Instr) (st : Status) : (s.finish i st).ht = s.ht := rfl
@[simp] theorem State.finish_script (s : State) (i : Instr) (st : Status) : (s.finish i st).script = s.script := rfl
@[simp] theorem State.finish_rdata (s : State) (i : Instr) (st : Status) : (s.finish i st).rdata = s.rdata := rfl
@[simp] theorem State.finish_clkReads (s : State) (i : Instr) (st : Status) : (s.finish i st).clkReads = s.clkReads := rfl
@[simp] theorem State.finish_resets (s : State) (i : Instr) (st : Status) : (s.finish i st).resets = s.resets := rfl

/-! ### `State.flagIllCmd` -/

@[simp] theorem State.flagIllCmd_opa (s : State) : (s.flagIllCmd).opa = s.opa := rfl
@[simp] theorem State.flagIllCmd_opb (s : State) : (s.flagIllCmd).opb = s.opb := rfl
@[simp] theorem State.flagIllCmd_opc (s : State) : (s.flagIllCmd).opc = s.opc := rfl
@[simp] theorem State.flagIllCmd_opw (s : State) : (s.flagIllCmd).opw = s.opw := rfl
@[simp] theorem State.flagIllCmd_opx (s : State) : (s.flagIllCmd).opx = s.opx := rfl
@[simp] theorem State.flagIllCmd_len (s : State) : (s.flagIllCmd).len = s.len := rfl
@[simp] theorem State.flagIllCmd_res (s : State) : (s.flagIllCmd).res = s.res := rfl
@[simp] theorem State.flagIllCmd_resW (s : State) : (s.flagIllCmd).resW = s.resW := rfl
@[simp] theorem State.flagIllCmd_p (s : State) : (s.flagIllCmd).p = s.p := rfl
@[simp] theorem State.flagIllCmd_offsetMs (s : State) : (s.flagIllCmd).offsetMs = s.offsetMs := rfl
@[simp] theorem State.flagIllCmd_delayMs (s : State) : (s.flagIllCmd).delayMs = s.delayMs := rfl
@[simp] theorem State.flagIllCmd_status (s : State) : (s.flagIllCmd).status = s.status := rfl
@[simp] theorem State.flagIllCmd_lastop (s : State) : (s.flagIllCmd).lastop = s.lastop := rfl
@[simp] theorem State.flagIllCmd_illcmd (s : State) : (s.flagIllCmd).illcmd = true := rfl
@[simp] theorem State.flagIllCmd_accerr (s : State) : (s.flagIllCmd).accerr = s.accerr := rfl
@[simp] theorem State.flagIllCmd_kiss (s : State) : (s.flagIllCmd).kiss = s.kiss := rfl
@[simp] theorem State.flagIllCmd_mem (s : State) : (s.flagIllCmd).mem = s.mem := rfl
@[simp] theorem State.flagIllCmd_resetPin (s : State) : (s.flagIllCmd).resetPin = s.resetPin := rfl
@[simp] theorem State.flagIllCmd_ht (s : State) : (s.flagIllCmd).ht = s.ht := rfl
@[simp] theorem State.flagIllCmd_script (s : State) : (s.flagIllCmd).script = s.script := rfl
@[simp] theorem State.flagIllCmd_rdata (s : State) : (s.flagIllCmd).rdata = s.rdata := rfl
@[simp] theorem State.flagIllCmd_clkReads (s : State) : (s.flagIllCmd).clkReads = s.clkReads := rfl
@[simp] theorem State.flagIllCmd_resets (s : State) : (s.flagIllCmd).resets = s.resets := rfl

/-! ### `State.flagAccErr` -/

@[simp] theorem State.flagAccErr_opa (s : State) : (s.flagAccErr).opa = s.opa := rfl
@[simp] theorem State.flagAccErr_opb (s : State) : (s.flagAccErr).opb = s.opb := rfl
@[simp] theorem State.flagAccErr_opc (s : State) : (s.flagAccErr).opc = s.opc := rfl
@[simp] theorem State.flagAccErr_opw (s : State) : (s.flagAccErr).opw = s.opw := rfl
@[simp] theorem State.flagAccErr_opx (s : State) : (s.flagAccErr).opx = s.opx := rfl
@[simp] theorem State.flagAccErr_len (s : State) : (s.flagAccErr).len = s.len := rfl
@[simp] theorem State.flagAccErr_res (s : State) : (s.flagAccErr).res = s.res := rfl
@[simp] theorem State.flagAccErr_resW (s : State) : (s.flagAccErr).resW = s.resW := rfl
@[simp] theorem State.flagAccErr_p (s : State) : (s.flagAccErr).p = s.p := rfl
@[simp] theorem State.flagAccErr_offsetMs (s : State) : (s.flagAccErr).offsetMs = s.offsetMs := rfl
@[simp] theorem State.flagAccErr_delayMs (s : State) : (s.flagAccErr).delayMs = s.delayMs := rfl
@[simp] theorem State.flagAccErr_status (s : State) : (s.flagAccErr).status = s.status := rfl
@[simp] theorem State.flagAccErr_lastop (s : State) : (s.flagAccErr).lastop = s.lastop := rfl
@[simp] theorem State.flagAccErr_illcmd (s : State) : (s.flagAccErr).illcmd = s.illcmd := rfl
@[simp] theorem State.flagAccErr_accerr (s : State) : (s.flagAccErr).accerr = true := rfl
@[simp] theorem State.flagAccErr_kiss (s : State) : (s.flagAccErr).kiss = s.kiss := rfl
@[simp] theorem State.flagAccErr_mem (s : State) : (s.flagAccErr).mem = s.mem := rfl
@[simp] theorem State.flagAccErr_resetPin (s : State) : (s.flagAccErr).resetPin = s.resetPin := rfl
@[simp] theorem State.flagAccErr_ht (s : State) : (s.flagAccErr).ht = s.ht := rfl
@[simp] theorem State.flagAccErr_script (s : State) : (s.flagAccErr).script = s.script := rfl
@[simp] theorem State.flagAccErr_rdata (s : State) : (s.flagAccErr).rdata = s.rdata := rfl
@[simp] theorem State.flagAccErr_clkReads (s : State) : (s.flagAccErr).clkReads = s.clkReads := rfl
@[simp] theorem State.flagAccErr_resets (s : State) : (s.flagAccErr).resets = s.resets := rfl

/-! ### `State.putBytes` -/

@[simp] theorem State.putBytes_opa (s : State) (a : Nat) (bs : List Byte) : (s.putBytes a bs).opa = s.opa := rfl
@[simp] theorem State.putBytes_opb (s : State) (a : Nat) (bs : List Byte) : (s.putBytes a bs).opb = s.opb := rfl
@[simp] theorem State.putBytes_opc (s : State) (a : Nat) (bs : List Byte) : (s.putBytes a bs).opc = s.opc := rfl
@[simp] theorem State.putBytes_opw (s : State) (a : Nat) (bs : List Byte) : (s.putBytes a bs).opw = s.opw := rfl
@[simp] theorem State.putBytes_opx (s : State) (a : Nat) (bs : List Byte) : (s.putBytes a bs).opx = s.opx := rfl
@[simp] theorem State.putBytes_len (s : State) (a : Nat) (bs : List Byte) : (s.putBytes a bs).len = s.len := rfl
@[simp] theorem State.putBytes_res (s : State) (a : Nat) (bs : List Byte) : (s.putBytes a bs).res = s.res := rfl
@[simp] theorem State.putBytes_resW (s : State) (a : Nat) (bs : List Byte) : (s.putBytes a bs).resW = s.resW := rfl
@[simp] theorem State.putBytes_p (s : State) (a : Nat) (bs : List Byte) : (s.putBytes a bs).p = s.p := rfl
@[simp] theorem State.putBytes_offsetMs (s : State) (a : Nat) (bs : List Byte) : (s.putBytes a bs).offsetMs = s.offsetMs := rfl
@[simp] theorem State.putBytes_delayMs (s : State) (a : Nat) (bs : List Byte) : (s.putBytes a bs).delayMs = s.delayMs := rfl
@[simp] theorem State.putBytes_status (s : State) (a : Nat) (bs : List Byte) : (s.putBytes a bs).status = s.status := rfl
@[simp] theorem State.putBytes_lastop (s : State) (a : Nat) (bs : List Byte) : (s.putBytes a bs).lastop = s.lastop := rfl
@[simp] theorem State.putBytes_illcmd (s : State) (a : Nat) (bs : List Byte) : (s.putBytes a bs).illcmd = s.illcmd := rfl
@[simp] theorem State.putBytes_accerr (s : State) (a : Nat) (bs : List Byte) : (s.putBytes a bs).accerr = s.accerr := rfl
@[simp] theorem State.putBytes_kiss (s : State) (a : Nat) (bs : List Byte) : (s.putBytes a bs).kiss = s.kiss := rfl
@[simp] theorem State.putBytes_mem (s : State) (a : Nat) (bs : List Byte) : (s.putBytes a bs).mem = Memory.putAll s.mem a bs := rfl
@[simp] theorem State.putBytes_resetPin (s : State) (a : Nat) (bs : List Byte) : (s.putBytes a bs).resetPin = s.resetPin := rfl
@[simp] theorem State.putBytes_ht (s : State) (a : Nat) (bs : List Byte) : (s.putBytes a bs).ht = s.ht := rfl
@[simp] theorem State.putBytes_script (s : State) (a : Nat) (bs : List Byte) : (s.putBytes a bs).script = s.script := rfl
@[simp] theorem State.putBytes_rdata (s : State) (a : Nat) (bs : List Byte) : (s.putBytes a bs).rdata = s.rdata := rfl
@[simp] theorem State.putBytes_clkReads (s : State) (a : Nat) (bs : List Byte) : (s.putBytes a bs).clkReads = s.clkReads := rfl
@[simp] theorem State.putBytes_resets (s : State) (a : Nat) (bs : List Byte) : (s.putBytes a bs).resets = s.resets := rfl

end Sys2Proof.Machine
end

