-- ==== Sys2Proof/Laws/Memory.lean ====
section
/-! SUPPORT. The byte windows: a read after a write, the canonical form, words and Timestamps in wire order (spec R36). -/

namespace Sys2Proof.Machine

/-! ### One byte -/

theorem find_put (m : Memory) (a x : Nat) (b : Byte) :
    Memory.find (Memory.put m a b) x = if x = a then some b else Memory.find m x := by
  induction m with
  | nil => simp only [Memory.put, Memory.find]
  | cons c t ih =>
    obtain ⟨k, v⟩ := c
    simp only [Memory.put]
    split
    · simp only [Memory.find]
    · split
      · subst_vars
        simp only [Memory.find]
        split <;> rfl
      · simp only [Memory.find, ih]
        grind

/-- What a run of written bytes leaves at every offset: the byte written there, else what was there before. -/
theorem find_putAll (bs : List Byte) (m : Memory) (a x : Nat) :
    Memory.find (Memory.putAll m a bs) x
      = if a ≤ x then (bs[x - a]?).or (Memory.find m x) else Memory.find m x := by
  induction bs generalizing m a with
  | nil => simp [Memory.putAll]
  | cons b bs ih =>
    rw [Memory.putAll, ih, find_put]
    rcases Nat.lt_trichotomy x a with h | rfl | h
    · have h1 : ¬ a + 1 ≤ x := by omega
      have h2 : ¬ a ≤ x := by omega
      simp only [h1, h2, h.ne, if_false]
    · simp
    · obtain ⟨d, rfl⟩ : ∃ d, x = a + 1 + d := ⟨x - (a + 1), by omega⟩
      have h1 : a + 1 + d - (a + 1) = d := by omega
      have h2 : a + 1 + d - a = d + 1 := by omega
      have h3 : a ≤ a + 1 + d := by omega
      simp only [Nat.le_add_right, if_true, h1, h2, h3, h.ne', if_false, List.getElem?_cons_succ]

/-! ### The canonical form (log entry 7) -/

theorem risingAbove_put (m : Memory) (lo a : Nat) (b : Byte) (h : Memory.risingAbove lo m = true) (ha : lo < a) :
    Memory.risingAbove lo (Memory.put m a b) = true := by
  induction m generalizing lo with
  | nil => simpa [Memory.put, Memory.risingAbove] using ha
  | cons c t ih =>
    obtain ⟨k, v⟩ := c
    simp only [Memory.risingAbove, Bool.and_eq_true, decide_eq_true_eq] at h
    simp only [Memory.put]
    split
    · simp [Memory.risingAbove, h.2, *]
    · split
      · subst_vars
        simp [Memory.risingAbove, h.1, h.2]
      · simp [Memory.risingAbove, h.1, ih k h.2 (by omega)]

theorem all_mapped_put (m : Memory) (a : Nat) (b : Byte) (h : m.all (fun c => byteMapped c.1) = true)
    (ha : byteMapped a = true) : (Memory.put m a b).all (fun c => byteMapped c.1) = true := by
  induction m with
  | nil => simpa [Memory.put] using ha
  | cons c t ih =>
    obtain ⟨k, v⟩ := c
    simp only [List.all_cons, Bool.and_eq_true] at h
    simp only [Memory.put]
    split
    · simp only [List.all_cons, Bool.and_eq_true]; exact ⟨ha, h.1, h.2⟩
    · split
      · simp only [List.all_cons, Bool.and_eq_true]; exact ⟨ha, h.2⟩
      · simp only [List.all_cons, Bool.and_eq_true]; exact ⟨h.1, ih h.2⟩

/-- Writing a byte inside a window keeps the canonical form. -/
theorem wf_put (m : Memory) (a : Nat) (b : Byte) (h : Memory.wf m = true) (ha : byteMapped a = true) :
    Memory.wf (Memory.put m a b) = true := by
  simp only [Memory.wf, Bool.and_eq_true] at h ⊢
  refine ⟨?_, all_mapped_put m a b h.2 ha⟩
  cases m with
  | nil => rfl
  | cons c t =>
    obtain ⟨k, v⟩ := c
    have ht := h.1
    simp only at ht
    simp only [Memory.put]
    split
    · rename_i e; revert e; split <;> (try split) <;> simp_all
    · rename_i k' v' t' e
      revert e
      split
      · rintro ⟨⟩; simp [Memory.risingAbove, *]
      · split
        · rintro ⟨⟩; subst_vars; exact ht
        · rintro ⟨⟩; exact risingAbove_put t _ a b ht (by omega)

/-- Writing bytes inside a window keeps the canonical form. -/
theorem wf_putAll (bs : List Byte) (m : Memory) (a : Nat) (h : Memory.wf m = true)
    (ha : ∀ x, a ≤ x → x < a + bs.length → byteMapped x = true) : Memory.wf (Memory.putAll m a bs) = true := by
  induction bs generalizing m a with
  | nil => exact h
  | cons b bs ih =>
    exact ih _ _ (wf_put m a b h (ha a (by omega) (by simp))) fun x h1 h2 => ha x (by omega) (by simp at h2 ⊢; omega)

/-! ### Bytes and words of the state -/

/-- A read after writes (R36): the byte written at that offset, else what was there before. -/
theorem byteAt_putBytes (s : State) (a x : Nat) (bs : List Byte) :
    (s.putBytes a bs).byteAt x = if a ≤ x then (bs[x - a]?).getD (s.byteAt x) else s.byteAt x := by
  simp only [State.byteAt, State.putBytes_mem, State.putBytes_resets, find_putAll]
  split
  · cases bs[x - a]? <;> rfl
  · rfl

/-- A byte outside the bytes written reads as before. -/
theorem byteAt_putBytes_outside (s : State) (a x : Nat) (bs : List Byte) (h : x < a ∨ a + bs.length ≤ x) :
    (s.putBytes a bs).byteAt x = s.byteAt x := by
  rw [byteAt_putBytes]
  split
  · rw [List.getElem?_eq_none (by omega)]; rfl
  · rfl

/-- The `i`-th byte written reads back. -/
theorem byteAt_putBytes_inside (s : State) (a i : Nat) (bs : List Byte) (h : i < bs.length) :
    (s.putBytes a bs).byteAt (a + i) = bs[i] := by
  rw [byteAt_putBytes, if_pos (by omega), Nat.add_sub_cancel_left, List.getElem?_eq_getElem h]; rfl

/-- `MemRead(off, 4)` after `MemWrite(off, 4, v)` returns `v` (R36): taking a word apart and putting it together. -/
theorem ofWire_wireBytes (v : Word) :
    ofWire (v.extractLsb' 24 8) (v.extractLsb' 16 8) (v.extractLsb' 8 8) (v.extractLsb' 0 8) = v := by
  simp only [ofWire]
  ext i hi
  simp only [BitVec.getElem_append, BitVec.getElem_extractLsb']
  rcases (by omega : i < 8 ∨ (8 ≤ i ∧ i < 16) ∨ (16 ≤ i ∧ i < 24) ∨ 24 ≤ i) with h | h | h | h <;> grind

/-- The bytes of a word put together from bytes. -/
theorem wireBytes_ofWire (b0 b1 b2 b3 : Byte) : wireBytes (ofWire b0 b1 b2 b3) = [b0, b1, b2, b3] := by
  simp only [wireBytes, ofWire, List.cons.injEq, and_true]
  refine ⟨?_, ?_, ?_, ?_⟩ <;>
  · ext i hi
    simp only [BitVec.getElem_extractLsb', BitVec.getLsbD_append]
    grind

/-- R36 as arithmetic: the first byte is the most significant. -/
theorem ofWire_toNat (b0 b1 b2 b3 : Byte) :
    (ofWire b0 b1 b2 b3).toNat = b0.toNat * 2 ^ 24 + b1.toNat * 2 ^ 16 + b2.toNat * 2 ^ 8 + b3.toNat := by
  simp only [ofWire, BitVec.toNat_append]
  rw [← Nat.shiftLeft_add_eq_or_of_lt (by omega), ← Nat.shiftLeft_add_eq_or_of_lt (by omega),
    ← Nat.shiftLeft_add_eq_or_of_lt (by omega)]
  simp only [Nat.shiftLeft_eq]
  omega

@[simp] theorem wireBytes_length (v : Word) : (wireBytes v).length = 4 := rfl

/-- A Timestamp written reads back (R36, R53). -/
theorem tsAt_putTs (s : State) (a : Nat) (t : Timestamp) : (s.putTs a t).tsAt a = t := by
  obtain ⟨u, v⟩ := t
  simp [State.tsAt, State.wordAt, State.putTs, byteAt_putBytes, wireBytes, Nat.add_assoc, ofWire_wireBytes]

/-- A word written reads back (R36). -/
theorem wordAt_putBytes (s : State) (a : Nat) (v : Word) : (s.putBytes a (wireBytes v)).wordAt a = v := by
  simp [State.wordAt, byteAt_putBytes, wireBytes, ofWire_wireBytes]

/-- A word whose four bytes read as before reads as before. -/
theorem wordAt_congr (s t : State) (a : Nat) (h : ∀ i, i < 4 → t.byteAt (a + i) = s.byteAt (a + i)) :
    t.wordAt a = s.wordAt a := by
  simp only [State.wordAt]
  rw [show t.byteAt a = s.byteAt a from h 0 (by omega), h 1 (by omega), h 2 (by omega), h 3 (by omega)]

/-- A Timestamp whose eight bytes read as before reads as before. -/
theorem tsAt_congr (s t : State) (a : Nat) (h : ∀ i, i < 8 → t.byteAt (a + i) = s.byteAt (a + i)) :
    t.tsAt a = s.tsAt a := by
  simp only [State.tsAt]
  rw [wordAt_congr s t a fun i hi => h i (by omega), wordAt_congr s t (a + 4) fun i hi => by
    simpa [Nat.add_assoc] using h (4 + i) (by omega)]

/-! ### Updates that leave the byte windows alone -/

/-- The byte at an offset depends on the byte windows and the reset count only. -/
theorem byteAt_congr (s t : State) (h : t.mem = s.mem) (hr : t.resets = s.resets) (a : Nat) :
    t.byteAt a = s.byteAt a := by simp only [State.byteAt, h, hr]

@[simp] theorem byteAt_finish (s : State) (i : Instr) (st : Status) (a : Nat) :
    (s.finish i st).byteAt a = s.byteAt a := rfl

@[simp] theorem byteAt_setRes (s : State) (t : Timestamp) (a : Nat) : (s.setRes t).byteAt a = s.byteAt a := rfl

@[simp] theorem byteAt_setResW (s : State) (v : Word) (a : Nat) : (s.setResW v).byteAt a = s.byteAt a := rfl

@[simp] theorem byteAt_setFrame (s : State) (f : Frame) (a : Nat) : (s.setFrame f).byteAt a = s.byteAt a := rfl

@[simp] theorem byteAt_setOffsetDelay (s : State) (u v : BitVec 64) (a : Nat) :
    (s.setOffsetDelay u v).byteAt a = s.byteAt a := rfl

@[simp] theorem byteAt_clockTaken (s : State) (a : Nat) : s.clockTaken.byteAt a = s.byteAt a := rfl

@[simp] theorem byteAt_setScript (s : State) (es : List Event) (a : Nat) : (s.setScript es).byteAt a = s.byteAt a := rfl

@[simp] theorem byteAt_reply (s : State) (v : Word) (a : Nat) : (s.reply v).byteAt a = s.byteAt a := rfl

@[simp] theorem byteAt_flagAccErr (s : State) (a : Nat) : s.flagAccErr.byteAt a = s.byteAt a := rfl

@[simp] theorem byteAt_flagIllCmd (s : State) (a : Nat) : s.flagIllCmd.byteAt a = s.byteAt a := rfl

end Sys2Proof.Machine
end

