-- ==== Sys2Proof/Laws/Ops.lean ====
section
/-! SUPPORT. The shared operations of the packet commands: what a built frame reads as, what is left alone (spec R80, R82,
R93). -/

namespace Sys2Proof.Machine

/-! ### The byte windows are all that a store changes -/

/-- A store changes the byte windows only, and stores compose. -/
theorem putBytes_of_setMem (s t : State) (a : Nat) (bs : List Byte) (h : t = s.setMem t.mem) :
    t.putBytes a bs = s.setMem (t.putBytes a bs).mem := by
  show t.setMem (Memory.putAll t.mem a bs) = s.setMem (Memory.putAll t.mem a bs)
  generalize Memory.putAll t.mem a bs = m
  rw [h]
  rfl

/-- `SER_REQ` builds its frame in the byte windows only (R80). -/
theorem buildRequest_eq (s : State) (sent : Timestamp) : s.buildRequest sent = s.setMem (s.buildRequest sent).mem :=
  putBytes_of_setMem _ _ _ _ (putBytes_of_setMem _ _ _ _ (putBytes_of_setMem _ _ _ _ rfl))

/-- `SER_RESP` builds its frame in the byte windows only (R93). -/
theorem buildResponse_eq (s : State) : s.buildResponse = s.setMem s.buildResponse.mem :=
  putBytes_of_setMem _ _ _ _ (putBytes_of_setMem _ _ _ _ (putBytes_of_setMem _ _ _ _ (putBytes_of_setMem _ _ _ _
    (putBytes_of_setMem _ _ _ _ (putBytes_of_setMem _ _ _ _ (putBytes_of_setMem _ _ _ _ rfl))))))

/-! ### What each store leaves at every byte -/

theorem byteAt_clearFrame (s : State) (a : Nat) :
    s.clearFrame.byteAt a = if 0x100 ≤ a ∧ a < 0x130 then 0 else s.byteAt a := by
  rw [State.clearFrame, byteAt_putBytes, hw_pktSize, List.getElem?_replicate]
  rw [show pbufBase = 256 from rfl]
  by_cases h1 : 256 ≤ a
  · by_cases h2 : a < 304
    · rw [if_pos h1, if_pos (by omega), if_pos ⟨h1, h2⟩]; rfl
    · rw [if_pos h1, if_neg (by omega), if_neg (by omega)]; rfl
  · rw [if_neg h1, if_neg (by omega)]

theorem byteAt_memWrite1 (s : State) (off a : Nat) (b : Byte) :
    (s.memWrite1 off b).byteAt a = if a = 0x100 + off then b else s.byteAt a := by
  rw [State.memWrite1, byteAt_putBytes]
  rw [show pbufBase = 256 from rfl]
  rcases Nat.lt_trichotomy a (256 + off) with h | rfl | h
  · rw [if_neg (by omega), if_neg (by omega)]
  · simp
  · rw [if_pos (by omega), if_neg (by omega), List.getElem?_eq_none (by simp; omega)]; rfl

theorem byteAt_memWrite4 (s : State) (off a : Nat) (v : Word) :
    (s.memWrite4 off v).byteAt a =
      if 0x100 + off ≤ a ∧ a < 0x100 + off + 4 then ((wireBytes v)[a - (0x100 + off)]?).getD 0 else s.byteAt a := by
  rw [State.memWrite4, byteAt_putBytes]
  rw [show pbufBase = 256 from rfl]
  by_cases h1 : 256 + off ≤ a
  · by_cases h2 : a < 256 + off + 4
    · rw [if_pos h1, if_pos ⟨h1, h2⟩, List.getElem?_eq_getElem (by simp; omega)]; rfl
    · rw [if_pos h1, if_neg (by omega), List.getElem?_eq_none (by simp; omega)]; rfl
  · rw [if_neg h1, if_neg (by omega)]

theorem byteAt_putTs (s : State) (b a : Nat) (t : Timestamp) :
    (s.putTs b t).byteAt a =
      if b ≤ a ∧ a < b + 8 then ((wireBytes t.sec ++ wireBytes t.frac)[a - b]?).getD 0 else s.byteAt a := by
  rw [State.putTs, byteAt_putBytes]
  by_cases h1 : b ≤ a
  · by_cases h2 : a < b + 8
    · rw [if_pos h1, if_pos ⟨h1, h2⟩, List.getElem?_eq_getElem (by simp; omega)]; rfl
    · rw [if_pos h1, if_neg (by omega), List.getElem?_eq_none (by simp; omega)]; rfl
  · rw [if_neg h1, if_neg (by omega)]

theorem byteAt_tsWrite (s : State) (off a : Nat) (t : Timestamp) :
    (s.tsWrite off t).byteAt a =
      if 0x100 + off ≤ a ∧ a < 0x100 + off + 8 then ((wireBytes t.sec ++ wireBytes t.frac)[a - (0x100 + off)]?).getD 0
      else s.byteAt a := byteAt_putTs s (pbufBase + off) a t

/-- Every byte of the windows after a request is built (R81). -/
theorem byteAt_buildRequest (s : State) (sent : Timestamp) (a : Nat) :
    (s.buildRequest sent).byteAt a =
      if 0x128 ≤ a ∧ a < 0x130 then ((wireBytes sent.sec ++ wireBytes sent.frac)[a - 0x128]?).getD 0
      else if a = 0x100 then 0x23
      else if 0x100 ≤ a ∧ a < 0x130 then 0
      else s.byteAt a := by
  rw [State.buildRequest, byteAt_tsWrite, byteAt_memWrite1, byteAt_clearFrame]
  rfl

/-- Every byte of the windows after a response is built (R93). -/
theorem byteAt_buildResponse (s : State) (a : Nat) :
    s.buildResponse.byteAt a =
      if 0x128 ≤ a ∧ a < 0x130 then ((wireBytes s.opc.sec ++ wireBytes s.opc.frac)[a - 0x128]?).getD 0
      else if 0x120 ≤ a ∧ a < 0x128 then ((wireBytes s.opb.sec ++ wireBytes s.opb.frac)[a - 0x120]?).getD 0
      else if 0x118 ≤ a ∧ a < 0x120 then ((wireBytes s.opa.sec ++ wireBytes s.opa.frac)[a - 0x118]?).getD 0
      else if 0x10C ≤ a ∧ a < 0x110 then ((wireBytes s.opw)[a - 0x10C]?).getD 0
      else if a = 0x101 then s.opx.extractLsb' 0 8
      else if a = 0x100 then 0x24
      else if 0x100 ≤ a ∧ a < 0x130 then 0
      else s.byteAt a := by
  rw [State.buildResponse, byteAt_tsWrite, byteAt_tsWrite, byteAt_tsWrite, byteAt_memWrite4, byteAt_memWrite1,
    byteAt_memWrite1, byteAt_clearFrame]
  rfl

/-- The reference id, the three Timestamps of a built response read back (R93). -/
theorem fields_buildResponse (s : State) :
    s.buildResponse.wordAt 0x10C = s.opw ∧ s.buildResponse.tsAt 0x118 = s.opa
      ∧ s.buildResponse.tsAt 0x120 = s.opb ∧ s.buildResponse.tsAt 0x128 = s.opc := by
  simp [State.tsAt, State.wordAt, byteAt_buildResponse, wireBytes, ofWire_wireBytes]

/-- Parsing reads the byte windows only (R82), and of them bytes 0, 1, 12 to 15, 24 to 47 of `PBUF` (R52). -/
theorem parseFrame_congr (s t : State)
    (h : ∀ n, n ∈ [0, 1, 12, 13, 14, 15] ∨ (24 ≤ n ∧ n < 48) → t.byteAt (0x100 + n) = s.byteAt (0x100 + n)) :
    t.parseFrame = s.parseFrame := by
  simp only [State.parseFrame, State.memRead1, State.memRead4, State.tsRead, pbufBase, hw_offLvm, hw_offStratum,
    hw_offRefid, hw_offOrigin, hw_offReceive, hw_offTransmit, Frame.mk.injEq]
  refine ⟨h 0 (by simp), h 1 (by simp), wordAt_congr _ _ _ fun i hi => ?_, tsAt_congr _ _ _ fun i hi => ?_,
    tsAt_congr _ _ _ fun i hi => ?_, tsAt_congr _ _ _ fun i hi => ?_⟩
  · rw [Nat.add_assoc]; exact h (12 + i) (by simp; omega)
  · rw [Nat.add_assoc]; exact h (24 + i) (by simp; omega)
  · rw [Nat.add_assoc]; exact h (32 + i) (by simp; omega)
  · rw [Nat.add_assoc]; exact h (40 + i) (by simp; omega)

/-- The kiss class is one of the four `RejectedResponse*` statuses, codes 4 to 7 (R59, R91). -/
theorem kissClass_code (table : List KissEntry) (refid : Word) :
    4 ≤ (kissClass table refid).code.toNat ∧ (kissClass table refid).code.toNat ≤ 7 := by
  induction table with
  | nil => exact ⟨by simp [kissClass, Status.code], by simp [kissClass, Status.code]⟩
  | cons e t ih =>
    simp only [kissClass]
    split
    · simp only [Status.ofKissClass]; split <;> decide
    · exact ih

/-- The status of a kiss class has code `4 + CLASS` (R59). -/
theorem code_ofKissClass (cls : BitVec 2) : (Status.ofKissClass cls).code.toNat = 4 + cls.toNat := by
  revert cls; decide

/-- The kiss table as the list `kissClass` scans (R21, R91). -/
theorem kiss_toList (k : Vector KissEntry Config.kissN) : k.toList = [k[0], k[1], k[2], k[3]] := by
  rcases k with ⟨⟨l⟩, h⟩
  match l, h with
  | [_, _, _, _], _ => rfl

/-! ### The operations keep the canonical form of the byte windows (log entry 7) -/

theorem wf_putBytes (s : State) (a : Nat) (bs : List Byte) (h : Memory.wf s.mem = true)
    (hb : ∀ i, i < bs.length → byteMapped (a + i) = true) : Memory.wf (s.putBytes a bs).mem = true :=
  wf_putAll bs s.mem a h fun x h1 h2 => by
    rw [show x = a + (x - a) by omega]
    exact hb _ (by omega)

/-- An offset inside `WIRE` (R38). -/
theorem byteMapped_wire (i : Nat) (h : i < 8) : byteMapped (0x0C0 + i) = true := by
  interval_cases i <;> rfl

/-- An offset inside `PBUF` (R38). -/
theorem byteMapped_pbuf (i : Nat) (h : i < 48) : byteMapped (0x100 + i) = true := by
  interval_cases i <;> rfl

theorem wf_pbuf (s : State) (off : Nat) (bs : List Byte) (h : Memory.wf s.mem = true) (hb : off + bs.length ≤ 48) :
    Memory.wf (s.putBytes (pbufBase + off) bs).mem = true := by
  refine wf_putBytes s _ bs h fun i hi => ?_
  rw [show pbufBase = 256 from rfl, Nat.add_assoc]
  exact byteMapped_pbuf (off + i) (by omega)

theorem wf_putTs_wire (s : State) (t : Timestamp) (h : Memory.wf s.mem = true) :
    Memory.wf (s.putTs 0x0C0 t).mem = true :=
  wf_putBytes s _ _ h fun i hi => byteMapped_wire i hi

theorem wf_clearFrame (s : State) (h : Memory.wf s.mem = true) : Memory.wf s.clearFrame.mem = true :=
  wf_pbuf s 0 _ h (by decide)

theorem wf_buildRequest (s : State) (sent : Timestamp) (h : Memory.wf s.mem = true) :
    Memory.wf (s.buildRequest sent).mem = true :=
  wf_pbuf _ _ _ (wf_pbuf _ _ _ (wf_clearFrame s h) (by simp)) (by simp)

theorem wf_buildResponse (s : State) (h : Memory.wf s.mem = true) : Memory.wf s.buildResponse.mem = true :=
  wf_pbuf _ _ _ (wf_pbuf _ _ _ (wf_pbuf _ _ _ (wf_pbuf _ _ _ (wf_pbuf _ _ _ (wf_pbuf _ _ _ (wf_clearFrame s h)
    (by simp)) (by simp)) (by simp)) (by simp)) (by simp)) (by simp)

/-- The state after reset has canonical byte windows. -/
theorem wf_reset : Memory.wf State.reset.mem = true := rfl

end Sys2Proof.Machine
end

