-- ==== Sys2Proof/Laws/Exec.lean ====
section
/-! SUPPORT. Each command's meaning as an equation per outcome (spec R69 to R93), in terms of the named updates. -/

namespace Sys2Proof.Machine

theorem lenFits_iff (s : State) : s.lenFits = true ↔ 48 ≤ s.len.toNat := by
  rw [State.lenFits, decide_eq_true_eq, hw_pktSize]

theorem lenExact_iff (s : State) : s.lenExact = true ↔ s.len.toNat = 48 := by
  rw [State.lenExact, decide_eq_true_eq, hw_pktSize]

theorem millisOk_iff (m : Word) : millisOk m = true ↔ m.toNat < 1000 := by simp [millisOk]

/-- The version and mode check as R92 writes it. -/
theorem serverVersionMode_iff (lvm : Byte) :
    serverVersionMode lvm = true ↔ lvm.extractLsb' 3 3 = (4 : BitVec 3) ∧ lvm.extractLsb' 0 3 = (4 : BitVec 3) := by
  rw [serverVersionMode, Bool.and_eq_true, decide_eq_true_eq, decide_eq_true_eq]
  exact Iff.rfl

theorem exec_tsNow_ok (s : State) (h1 : s.clockSample.ok = true) (h2 : millisOk s.clockSample.ms = true) :
    exec .tsNow s = .next ((s.clockTaken.setRes
      ⟨toProtocolSeconds s.clockSample.sec, msToFrac 4295000 s.clockSample.ms⟩).finish .tsNow .success) := by
  simp [exec, execTsNow, h1, h2]

theorem exec_tsNow_fail (s : State) (h : s.clockSample.ok = false ∨ millisOk s.clockSample.ms = false) :
    exec .tsNow s = .next (s.clockTaken.finish .tsNow .timeNotSupported) := by
  simp [exec, execTsNow, h]

theorem exec_tsEnc (s : State) : exec .tsEnc s = .next ((s.putTs 0x0C0 s.opa).finish .tsEnc .success) := rfl

theorem exec_tsDec (s : State) : exec .tsDec s = .next ((s.setRes (s.tsAt 0x0C0)).finish .tsDec .success) := rfl

theorem exec_frac2ms (s : State) :
    exec .frac2ms s = .next ((s.setResW (fracToMs 4295000 s.opw)).finish .frac2ms .success) := rfl

theorem exec_ms2frac_ok (s : State) (h : millisOk s.opw = true) :
    exec .ms2frac s = .next ((s.setResW (msToFrac 4295000 s.opw)).finish .ms2frac .success) := by
  simp [exec, execMs2Frac, h]

theorem exec_ms2frac_refused (s : State) (h : millisOk s.opw = false) :
    exec .ms2frac s = .next (s.finish .ms2frac .badParameter) := by
  simp [exec, execMs2Frac, h]

theorem exec_serReq_fits (s : State) (h : s.lenFits = true) :
    exec .serReq s = .next (((s.setMem (s.buildRequest (asSent s.opa s.opw)).mem).setRes
      (asSent s.opa s.opw)).finish .serReq .success) := by
  simp only [exec, execSerReq, h, if_true]
  rw [← buildRequest_eq]

theorem exec_serReq_short (s : State) (h : s.lenFits = false) :
    exec .serReq s = .next (s.finish .serReq .badParameter) := by
  simp [exec, execSerReq, h]

theorem exec_desReq_exact (s : State) (h : s.lenExact = true) :
    exec .desReq s = .next ((s.setFrame s.parseFrame).finish .desReq .success) := by
  simp [exec, execDesReq, h]

theorem exec_desReq_wrong (s : State) (h : s.lenExact = false) :
    exec .desReq s = .next (s.finish .desReq .badParameter) := by
  simp [exec, execDesReq, h]

theorem exec_desResp_accepted (s : State) (h : s.lenExact = true) (hs : responseStatus s s.parseFrame = .success) :
    exec .desResp s = .next ((s.acceptResponse s.parseFrame).finish .desResp .success) := by
  simp [exec, execDesResp, h, hs]

theorem exec_desResp_rejected (s : State) (h : s.lenExact = true) (hs : responseStatus s s.parseFrame ≠ .success) :
    exec .desResp s = .next (s.finish .desResp (responseStatus s s.parseFrame)) := by
  simp [exec, execDesResp, h, hs]

theorem exec_desResp_wrong (s : State) (h : s.lenExact = false) :
    exec .desResp s = .next (s.finish .desResp .invalidResponse) := by
  simp [exec, execDesResp, h]

theorem exec_serResp_fits (s : State) (h : s.lenFits = true) :
    exec .serResp s = .next ((s.setMem s.buildResponse.mem).finish .serResp .success) := by
  simp only [exec, execSerResp, h, if_true]
  rw [← buildResponse_eq]

theorem exec_serResp_short (s : State) (h : s.lenFits = false) :
    exec .serResp s = .next (s.finish .serResp .badParameter) := by
  simp [exec, execSerResp, h]

/-- The bytes after a request is stored (R81). -/
theorem byteAt_setMem_buildRequest (s : State) (sent : Timestamp) (a : Nat) :
    (s.setMem (s.buildRequest sent).mem).byteAt a = (s.buildRequest sent).byteAt a := by rw [← buildRequest_eq]

/-- The bytes after a response is stored (R93). -/
theorem byteAt_setMem_buildResponse (s : State) (a : Nat) :
    (s.setMem s.buildResponse.mem).byteAt a = s.buildResponse.byteAt a := by rw [← buildResponse_eq]

/-- `TS_NOW` on a good sample, its two result words as free variables with their values: cases on this, and no check
computes with the two large constants (R69). -/
theorem exec_tsNow_result (s : State) (h1 : s.clockSample.ok = true) (h2 : s.clockSample.ms.toNat < 1000) :
    ∃ sec frac : Word, sec.toNat = (s.clockSample.sec.toNat + 2208988800) % 2 ^ 32
      ∧ frac.toNat = s.clockSample.ms.toNat * 4295000
      ∧ exec .tsNow s = .next ((s.clockTaken.setRes ⟨sec, frac⟩).finish .tsNow .success) :=
  ⟨_, _, toProtocolSeconds_toNat _, msToFrac_toNat 4295000 s.clockSample.ms (by omega) h2,
    exec_tsNow_ok s h1 ((millisOk_iff _).2 h2)⟩

/-- `MS2FRAC` on a count below 1000, its result word as a free variable with its value (R73). -/
theorem exec_ms2frac_result (s : State) (h : s.opw.toNat < 1000) :
    ∃ v : Word, v.toNat = s.opw.toNat * 4295000
      ∧ exec .ms2frac s = .next ((s.setResW v).finish .ms2frac .success) :=
  ⟨_, msToFrac_toNat 4295000 s.opw (by omega) h, exec_ms2frac_ok s ((millisOk_iff _).2 h)⟩

/-- `FRAC2MS`, its result word as a free variable with its value (R72). -/
theorem exec_frac2ms_result (s : State) :
    ∃ v : Word, v.toNat = s.opw.toNat / 4295000
      ∧ exec .frac2ms s = .next ((s.setResW v).finish .frac2ms .success) :=
  ⟨_, fracToMs_toNat 4295000 s.opw, exec_frac2ms s⟩

/-- `SER_REQ` on a buffer that is long enough, the as-sent time and the new byte windows as free variables with what they
hold (R79, R80). -/
theorem exec_serReq_result (s : State) (h : 48 ≤ s.len.toNat) :
    ∃ (ts : Timestamp) (m : Memory), ts.sec = s.opa.sec
      ∧ ts.frac = s.opa.frac ||| (s.opw.extractLsb' 16 16).setWidth 32
      ∧ (∀ a, (s.setMem m).byteAt a =
          if 0x128 ≤ a ∧ a < 0x130 then ((wireBytes ts.sec ++ wireBytes ts.frac)[a - 0x128]?).getD 0
          else if a = 0x100 then 0x23
          else if 0x100 ≤ a ∧ a < 0x130 then 0
          else s.byteAt a)
      ∧ exec .serReq s = .next (((s.setMem m).setRes ts).finish .serReq .success) :=
  ⟨_, _, asSent_sec _ _, asSent_frac _ _,
    fun a => (byteAt_setMem_buildRequest s _ a).trans (byteAt_buildRequest s _ a),
    exec_serReq_fits s ((lenFits_iff s).2 h)⟩

/-- `SER_RESP` on a buffer that is long enough, the new byte windows as a free variable with what they hold (R93). -/
theorem exec_serResp_result (s : State) (h : 48 ≤ s.len.toNat) :
    ∃ m : Memory, (∀ a, (s.setMem m).byteAt a = s.buildResponse.byteAt a)
      ∧ ((s.setMem m).wordAt 0x10C = s.opw ∧ (s.setMem m).tsAt 0x118 = s.opa ∧ (s.setMem m).tsAt 0x120 = s.opb
        ∧ (s.setMem m).tsAt 0x128 = s.opc)
      ∧ exec .serResp s = .next ((s.setMem m).finish .serResp .success) := by
  refine ⟨_, byteAt_setMem_buildResponse s, ?_, exec_serResp_fits s ((lenFits_iff s).2 h)⟩
  rw [← buildResponse_eq]
  exact fields_buildResponse s

/-- What `DES_RESP` ends with once the length is right, case by case in the order of R86. -/
theorem responseStatus_cases (s : State) (f : Frame) :
    (f.org ≠ s.opa ∧ responseStatus s f = .invalidResponse)
      ∨ (f.org = s.opa ∧ serverVersionMode f.lvm = false ∧ responseStatus s f = .invalidResponse)
      ∨ (f.org = s.opa ∧ serverVersionMode f.lvm = true ∧ f.stratum = 0
          ∧ responseStatus s f = kissClass s.kiss.toList f.refid)
      ∨ (f.org = s.opa ∧ serverVersionMode f.lvm = true ∧ f.stratum ≠ 0 ∧ responseStatus s f = .success) := by
  by_cases h1 : f.org = s.opa
  · cases h2 : serverVersionMode f.lvm with
    | false => exact .inr (.inl ⟨h1, rfl, by simp [responseStatus, h1, h2]⟩)
    | true =>
      by_cases h3 : f.stratum = 0
      · exact .inr (.inr (.inl ⟨h1, rfl, h3, by simp [responseStatus, h1, h2, h3]⟩))
      · exact .inr (.inr (.inr ⟨h1, rfl, h3, by
          rw [responseStatus, if_neg (by simp [h1]), if_neg (by simp [h2]), if_neg h3]⟩))
  · exact .inl ⟨h1, by simp [responseStatus, h1]⟩

/-- A kiss class is never `Success` (R91). -/
theorem kissClass_ne_success (table : List KissEntry) (refid : Word) : kissClass table refid ≠ .success := by
  intro h
  have := (kissClass_code table refid).1
  rw [h] at this
  exact absurd this (by decide)

/-- `DES_RESP` on a frame that passes every check and has stratum 0 ends with the kiss class (R85, R91). -/
theorem exec_desResp_kiss (s : State) (h1 : s.len.toNat = 48) (h2 : s.tsAt 0x118 = s.opa)
    (h3 : (s.byteAt 0x100).extractLsb' 3 3 = (4 : BitVec 3)) (h4 : (s.byteAt 0x100).extractLsb' 0 3 = (4 : BitVec 3))
    (h5 : s.byteAt 0x101 = 0) :
    exec .desResp s = .next (s.finish .desResp (kissClass s.kiss.toList (s.wordAt 0x10C))) := by
  have hv : serverVersionMode s.parseFrame.lvm = true := (serverVersionMode_iff _).2 ⟨h3, h4⟩
  have hr : responseStatus s s.parseFrame = kissClass s.kiss.toList (s.wordAt 0x10C) := by
    rcases responseStatus_cases s s.parseFrame with c | c | c | c
    · exact absurd h2 c.1
    · rw [hv] at c; exact absurd c.2.1 (by decide)
    · exact c.2.2.2
    · exact absurd h5 c.2.2.1
  rw [exec_desResp_rejected s ((lenExact_iff s).2 h1) (by rw [hr]; exact kissClass_ne_success _ _), hr]

/-- `DES_RESP` on a frame that passes every check and has a stratum other than 0 accepts it (R85). -/
theorem exec_desResp_ok (s : State) (h1 : s.len.toNat = 48) (h2 : s.tsAt 0x118 = s.opa)
    (h3 : (s.byteAt 0x100).extractLsb' 3 3 = (4 : BitVec 3)) (h4 : (s.byteAt 0x100).extractLsb' 0 3 = (4 : BitVec 3))
    (h5 : s.byteAt 0x101 ≠ 0) :
    exec .desResp s = .next ((s.acceptResponse s.parseFrame).finish .desResp .success) := by
  have hv : serverVersionMode s.parseFrame.lvm = true := (serverVersionMode_iff _).2 ⟨h3, h4⟩
  have hr : responseStatus s s.parseFrame = .success := by
    rcases responseStatus_cases s s.parseFrame with c | c | c | c
    · exact absurd h2 c.1
    · rw [hv] at c; exact absurd c.2.1 (by decide)
    · exact absurd c.2.2.1 h5
    · exact c.2.2.2
  rw [exec_desResp_accepted s ((lenExact_iff s).2 h1) hr]

/-- The status of a kiss class is one `DES_RESP` may end with (R112). -/
theorem mayEndWith_kissClass (table : List KissEntry) (refid : Word) :
    mayEndWith .desResp (kissClass table refid) = true := by
  have h : ∀ cls : BitVec 2, mayEndWith .desResp (Status.ofKissClass cls) = true := by decide
  induction table with
  | nil => rfl
  | cons e t ih =>
    simp only [kissClass]
    split
    · exact h e.cls
    · exact ih

/-- What a command can leave, once for all nine: it failed with a status of its own and wrote nothing else, or it
succeeded and made its writes. A proof over all commands starts here instead of unfolding the meanings. -/
inductive ExecEffect (s : State) : Instr → State → Prop where
  | failed (i : Instr) (st : Status) (hi : i ≠ .tsNow) (hs : st ≠ .success) (hm : mayEndWith i st = true) :
    ExecEffect s i (s.finish i st)
  | clockFailed : ExecEffect s .tsNow (s.clockTaken.finish .tsNow .timeNotSupported)
  | tsNow (ts : Timestamp) : ExecEffect s .tsNow ((s.clockTaken.setRes ts).finish .tsNow .success)
  | tsEnc : ExecEffect s .tsEnc ((s.putTs 0x0C0 s.opa).finish .tsEnc .success)
  | tsDec : ExecEffect s .tsDec ((s.setRes (s.tsAt 0x0C0)).finish .tsDec .success)
  | frac2ms (v : Word) : ExecEffect s .frac2ms ((s.setResW v).finish .frac2ms .success)
  | ms2frac (v : Word) : ExecEffect s .ms2frac ((s.setResW v).finish .ms2frac .success)
  | serReq : ExecEffect s .serReq (((s.setMem (s.buildRequest (asSent s.opa s.opw)).mem).setRes
      (asSent s.opa s.opw)).finish .serReq .success)
  | desReq : ExecEffect s .desReq ((s.setFrame s.parseFrame).finish .desReq .success)
  | desResp (off dly : BitVec 64) :
    ExecEffect s .desResp (((s.setFrame s.parseFrame).setOffsetDelay off dly).finish .desResp .success)
  | serResp : ExecEffect s .serResp ((s.setMem s.buildResponse.mem).finish .serResp .success)

/-- Every command answers a next state with one of those effects. -/
theorem exec_effect (i : Instr) (s : State) : ∃ t, exec i s = .next t ∧ ExecEffect s i t := by
  cases i with
  | tsNow =>
    cases h1 : s.clockSample.ok with
    | false => exact ⟨_, exec_tsNow_fail s (.inl h1), .clockFailed⟩
    | true =>
      cases h2 : millisOk s.clockSample.ms with
      | false => exact ⟨_, exec_tsNow_fail s (.inr h2), .clockFailed⟩
      | true => exact ⟨_, exec_tsNow_ok s h1 h2, .tsNow _⟩
  | tsEnc => exact ⟨_, exec_tsEnc s, .tsEnc⟩
  | tsDec => exact ⟨_, exec_tsDec s, .tsDec⟩
  | frac2ms => exact ⟨_, exec_frac2ms s, .frac2ms _⟩
  | ms2frac =>
    cases h : millisOk s.opw with
    | false => exact ⟨_, exec_ms2frac_refused s h, .failed _ _ (by decide) (by decide) rfl⟩
    | true => exact ⟨_, exec_ms2frac_ok s h, .ms2frac _⟩
  | serReq =>
    cases h : s.lenFits with
    | false => exact ⟨_, exec_serReq_short s h, .failed _ _ (by decide) (by decide) rfl⟩
    | true => exact ⟨_, exec_serReq_fits s h, .serReq⟩
  | desReq =>
    cases h : s.lenExact with
    | false => exact ⟨_, exec_desReq_wrong s h, .failed _ _ (by decide) (by decide) rfl⟩
    | true => exact ⟨_, exec_desReq_exact s h, .desReq⟩
  | desResp =>
    cases h : s.lenExact with
    | false => exact ⟨_, exec_desResp_wrong s h, .failed _ _ (by decide) (by decide) rfl⟩
    | true =>
      by_cases hs : responseStatus s s.parseFrame = .success
      · exact ⟨_, exec_desResp_accepted s h hs, .desResp _ _⟩
      · refine ⟨_, exec_desResp_rejected s h hs, .failed _ _ (by decide) hs ?_⟩
        rcases responseStatus_cases s s.parseFrame with h | h | h | h
        · rw [h.2]; rfl
        · rw [h.2.2]; rfl
        · rw [h.2.2.2]; exact mayEndWith_kissClass _ _
        · exact absurd h.2.2.2 hs
  | serResp =>
    cases h : s.lenFits with
    | false => exact ⟨_, exec_serResp_short s h, .failed _ _ (by decide) (by decide) rfl⟩
    | true => exact ⟨_, exec_serResp_fits s h, .serResp⟩

/-- The effect of the next state a command did answer. -/
theorem effect_of_exec (i : Instr) (s t : State) (h : exec i s = .next t) : ExecEffect s i t := by
  obtain ⟨u, hu, he⟩ := exec_effect i s
  rw [h] at hu
  cases hu
  exact he

end Sys2Proof.Machine
end

