-- ==== Sys2Proof/Laws/PerInstr.lean ====
section
/-! SUPPORT. The per-command family `RoundTrip`: a well-formed command's word decodes to it (spec R45 to R48). -/

namespace Sys2Proof.Laws.RoundTrip

/-- The word of a well-formed command decodes to the command. -/
def Statement (i : Instr) : Prop := i.wf = true → decode (encode i) = .ok i

theorem tsNow : Statement .tsNow := fun _ => rfl
theorem tsEnc : Statement .tsEnc := fun _ => rfl
theorem tsDec : Statement .tsDec := fun _ => rfl
theorem frac2ms : Statement .frac2ms := fun _ => rfl
theorem ms2frac : Statement .ms2frac := fun _ => rfl
theorem serReq : Statement .serReq := fun _ => rfl
theorem desReq : Statement .desReq := fun _ => rfl
theorem desResp : Statement .desResp := fun _ => rfl
theorem serResp : Statement .serResp := fun _ => rfl

end Sys2Proof.Laws.RoundTrip
end

