-- ==== Sys2Proof/Laws/Step.lean ====
section
/-! SUPPORT. What the shared operations of the host port and the step can do, once each (spec R13, R30 to R34, R27). -/

namespace Sys2Proof.Machine

/-- A write to a register other than `CMD` changes operands and the kiss table only (R33). -/
theorem writeReg_frame (s : State) (r : Reg) (v : Word) :
    s.writeReg r v = { s with
      opa := (s.writeReg r v).opa, opb := (s.writeReg r v).opb, opc := (s.writeReg r v).opc,
      opw := (s.writeReg r v).opw, opx := (s.writeReg r v).opx, len := (s.writeReg r v).len,
      kiss := (s.writeReg r v).kiss } := by cases r <;> rfl

/-- The byte windows as R38 lists them. -/
theorem byteMapped_iff (off : Nat) :
    byteMapped off = true ↔ (0x0C0 ≤ off ∧ off ≤ 0x0C7) ∨ (0x100 ≤ off ∧ off ≤ 0x12F) := by
  rw [byteMapped, Bool.or_eq_true, Bool.and_eq_true, Bool.and_eq_true, decide_eq_true_eq, decide_eq_true_eq,
    decide_eq_true_eq, decide_eq_true_eq]
  show (192 ≤ off ∧ off < 192 + 8) ∨ (256 ≤ off ∧ off < 256 + 48) ↔ _
  omega

/-- The operations an access that is no legal command can come down to (R32, R33, R49). -/
inductive PortEffect (s : State) : State → Prop where
  /-- A read answered (R30), or a well-formed access of a register that ignores it. -/
  | replied (v : Word) : PortEffect s (s.reply v)
  /-- A register other than `CMD` written (R33). -/
  | wrote (r : Reg) (v : Word) : PortEffect s (s.writeReg r v)
  /-- A byte of a window written (R30). -/
  | stored (off : Nat) (b : Byte) (h : byteMapped off = true) : PortEffect s (s.putBytes off [b])
  /-- An illegal command word (R49). -/
  | illegal : PortEffect s s.flagIllCmd
  /-- An ill-formed write (R32). -/
  | illWrite : PortEffect s s.flagAccErr
  /-- An ill-formed read (R32). -/
  | illRead : PortEffect s (s.flagAccErr.reply 0)

/-- One access either runs the legal command it writes to `CMD`, or has one of the effects above. -/
theorem runAccess_cases (a : Access) (s : State) :
    (∃ w i, a = .w32 0x000 w ∧ decode w = .ok i ∧ runAccess a s = exec i s)
      ∨ ∃ t, runAccess a s = .next t ∧ PortEffect s t := by
  cases a with
  | r32 off =>
    refine .inr ⟨_, rfl, ?_⟩
    simp only [readWord]
    split
    · exact .replied _
    · exact .illRead
  | w32 off v =>
    simp only [runAccess, writeWord]
    split
    · rename_i h
      simp only [runCommand]
      split
      · rename_i i hd
        exact .inl ⟨v, i, by rw [(regAt_cmd_iff off).1 h], hd, rfl⟩
      · exact .inr ⟨_, rfl, .illegal⟩
    · exact .inr ⟨_, rfl, .wrote _ _⟩
    · exact .inr ⟨_, rfl, .illWrite⟩
  | r8 off =>
    refine .inr ⟨_, rfl, ?_⟩
    simp only [readByte]
    split
    · exact .replied _
    · exact .illRead
  | w8 off b =>
    refine .inr ⟨_, rfl, ?_⟩
    simp only [writeByte]
    split
    · rename_i h; exact .stored off b h
    · exact .illWrite
  | oddRead k off => exact .inr ⟨_, rfl, .illRead⟩
  | oddWrite k off => exact .inr ⟨_, rfl, .illWrite⟩

/-- An access while RESET is not asserted is what the step does (R40). -/
theorem step_access (s : State) (a : Access) (es : List Event) (hs : s.script = .access a :: es)
    (hr : s.resetPin = false) : step s = runAccess a (s.setScript es) := by
  simp [step, hs, runEvent, hr]

/-- An access while RESET is asserted is not accepted (R27, log entry 6). -/
theorem step_access_dropped (s : State) (a : Access) (es : List Event) (hs : s.script = .access a :: es)
    (hr : s.resetPin = true) : step s = .next (s.setScript es) := by
  simp [step, hs, runEvent, hr]

/-- A `KISS_CTL[i]` written reads back without its bits 30 to 2 (R22, R33). -/
theorem kissCtlWord_setCtl (e : KissEntry) (v : Word) : kissCtlWord (e.setCtl v) = v &&& 0x80000003 := by
  apply BitVec.eq_of_getLsbD_eq
  intro j hj
  simp only [kissCtlWord, KissEntry.setCtl, BitVec.getLsbD_append, BitVec.getLsbD_extractLsb', BitVec.getLsbD_and]
  interval_cases j <;> simp

/-- Writing one byte keeps the canonical form of the byte windows (R32, log entry 7). -/
theorem wf_writeByte (off : Nat) (b : Byte) (s : State) (h : Memory.wf s.mem = true) :
    Memory.wf (writeByte off b s).mem = true := by
  simp only [writeByte]
  split
  · rename_i hm
    refine wf_putBytes s off [b] h fun i hi => ?_
    rw [show i = 0 by simpa using hi]
    exact hm
  · exact h

/-- A write to `CMD` is what `runCommand` does (R13). -/
theorem runAccess_cmd (w : Word) (s : State) : runAccess (.w32 0x000 w) s = runCommand w s := rfl

/-- A legal word runs its command (R46). -/
theorem runCommand_ok (w : Word) (i : Instr) (s : State) (h : decode w = .ok i) : runCommand w s = exec i s := by
  simp only [runCommand, h]

/-- A word that decodes to no command is flagged (R49). -/
theorem runCommand_illegal (w : Word) (s : State) (h : ∀ i, decode w ≠ .ok i) : runCommand w s = .next s.flagIllCmd := by
  cases hd : decode w with
  | ok i => exact absurd hd (h i)
  | error e => simp only [runCommand, hd]

/-- What a step can do: wait, drop an access met while RESET is asserted, run a legal command, take another access, take a
clock line, drive RESET. -/
theorem step_cases (s : State) :
    (s.script = [] ∧ step s = .next s)
      ∨ ∃ e es, s.script = e :: es ∧
        ((∃ a, e = .access a ∧ s.resetPin = true ∧ step s = .next (s.setScript es))
          ∨ (∃ w i, e = .access (.w32 0x000 w) ∧ s.resetPin = false ∧ decode w = .ok i ∧ step s = exec i (s.setScript es))
          ∨ (∃ a t, e = .access a ∧ s.resetPin = false ∧ step s = .next t ∧ PortEffect (s.setScript es) t)
          ∨ (∃ c, e = .ht c ∧ step s = .next ((s.setScript es).presentClock c))
          ∨ ∃ b, e = .reset b ∧ step s = .next (driveReset b (s.setScript es))) := by
  rcases hs : s.script with _ | ⟨e, es⟩
  · exact .inl ⟨rfl, by simp only [step, hs]⟩
  refine .inr ⟨e, es, rfl, ?_⟩
  have hstep : step s = runEvent e (s.setScript es) := by simp only [step, hs]
  cases e with
  | access a =>
    cases hr : s.resetPin with
    | true => exact .inl ⟨a, rfl, rfl, step_access_dropped s a es hs hr⟩
    | false =>
      have h := step_access s a es hs hr
      rcases runAccess_cases a (s.setScript es) with ⟨w, i, rfl, hd, hx⟩ | ⟨t, hx, ht⟩
      · exact .inr (.inl ⟨w, i, rfl, rfl, hd, h.trans hx⟩)
      · exact .inr (.inr (.inl ⟨a, t, rfl, rfl, h.trans hx, ht⟩))
  | ht c => exact .inr (.inr (.inr (.inl ⟨c, rfl, hstep⟩)))
  | reset b => exact .inr (.inr (.inr (.inr ⟨b, rfl, hstep⟩)))

end Sys2Proof.Machine
end

