-- ==== Sys2Proof/Machine/Script.lean ====
section
/-! DEFINITION. Host scripts: the notation of spec R60, the pseudo-instructions of R61, the triples of R62. They build the
list of events a host puts on the port; the machine knows only the events. -/

namespace Sys2Proof.Machine

/-- The access kinds of R62. -/
inductive TripleKind where
  | W32
  | R32
  | W8
  | R8
  deriving DecidableEq, Repr

/-- An access as a triple (kind, offset, value) (R62). The value of a read is the datum expected; it is not sent. -/
def Access.ofTriple (kind : TripleKind) (off val : Nat) : Access :=
  match kind with
  | .W32 => .w32 off (BitVec.ofNat 32 val)
  | .R32 => .r32 off
  | .W8  => .w8 off (BitVec.ofNat 8 val)
  | .R8  => .r8 off

/-- The offset of a register (R38): the first row that holds it. -/
def Reg.offset (r : Reg) : Nat :=
  match registerMap.find? (fun row => row.2 = r) with
  | some row => row.1
  | none     => 0

/-- `WR reg, v` (R60). -/
def wr (r : Reg) (v : Word) : Event := .access (.w32 r.offset v)

/-- `RD reg` (R60). -/
def rd (r : Reg) : Event := .access (.r32 r.offset)

/-- `WB PBUF[i], b` (R60). -/
def wbPbuf (i : Nat) (b : Byte) : Event := .access (.w8 (pbufBase + i) b)

/-- `RB PBUF[i]` (R60). -/
def rbPbuf (i : Nat) : Event := .access (.r8 (pbufBase + i))

/-- `WB WIRE[i], b` (R60). -/
def wbWire (i : Nat) (b : Byte) : Event := .access (.w8 (wireBase + i) b)

/-- `RB WIRE[i]` (R60). -/
def rbWire (i : Nat) : Event := .access (.r8 (wireBase + i))

/-- `<MNEMONIC>`: exactly `WR CMD, opcode` (R60). -/
def command (i : Instr) : Event := wr .cmd (encode i)

/-- The Timestamp operand registers, destinations of `LDTS` and `MOVTS` (R61). -/
inductive TsDest where
  | A
  | B
  | C
  deriving DecidableEq, Repr

/-- The register pair of a destination (R11). -/
def TsDest.pair (d : TsDest) : Reg × Reg :=
  match d with
  | .A => (.opaSec, .opaFrac)
  | .B => (.opbSec, .opbFrac)
  | .C => (.opcSec, .opcFrac)

/-- The source pairs of `MOVTS` (R61). -/
inductive TsSource where
  | res
  | pOrg
  | pRcv
  | pXmt
  deriving DecidableEq, Repr

/-- The register pair of a source (R14, R15). -/
def TsSource.pair (x : TsSource) : Reg × Reg :=
  match x with
  | .res  => (.resSec, .resFrac)
  | .pOrg => (.pOrgSec, .pOrgFrac)
  | .pRcv => (.pRcvSec, .pRcvFrac)
  | .pXmt => (.pXmtSec, .pXmtFrac)

/-- `LDTS d, (s, f)` (R61). -/
def ldts (d : TsDest) (t : Timestamp) : List Event := [wr d.pair.1 t.sec, wr d.pair.2 t.frac]

/-- `MOVTS d, x` (R61). `t` is what the two reads return: the host carries it (log entry 14). -/
def movts (d : TsDest) (x : TsSource) (t : Timestamp) : List Event := [rd x.pair.1, rd x.pair.2] ++ ldts d t

/-- Byte writes to `PBUF[i]`, `PBUF[i+1]`, ... -/
def wbFrom (i : Nat) (bs : List Byte) : List Event :=
  match bs with
  | []      => []
  | b :: bs => wbPbuf i b :: wbFrom (i + 1) bs

/-- `LDPKT b0 ... b47` (R61). -/
def ldpkt (bs : List Byte) : List Event := wbFrom 0 bs

/-- `RDPKT` (R61). -/
def rdpkt : List Event := (List.range hw.pktSize).map rbPbuf

/-- `KISS i, code, class` (R61). -/
def kissSet (i : Fin Config.kissN) (code : Word) (cls : BitVec 2) : List Event :=
  [wr (.kissCode i) code, wr (.kissCtl i) (0x80000000 + cls.setWidth 32)]

/-- `RD64 OFFSET_MS` (R61). -/
def rd64Offset : List Event := [rd .offsetMsLo, rd .offsetMsHi]

/-- `RD64 DELAY_MS` (R61). -/
def rd64Delay : List Event := [rd .delayMsLo, rd .delayMsHi]

end Sys2Proof.Machine
end

