-- ==== Sys2Proof/Tests/Slice0.lean ====
section
/-! SUPPORT. Tests: command words written out from the spec's encoding, refused words and accesses, vectors of
95_test_vectors.md (each by its number V<n>), and for every statement with hypotheses a witness that meets them. -/

namespace Sys2Proof.Tests

open Sys2Proof Sys2Proof.Machine

/-! ### Small states to start from -/

/-- The next state of an outcome; `s` where there is none. -/
def nextOf (s : State) (o : Host.Outcome State Fault Refusal) : State :=
  match o with
  | .next t    => t
  | .fault _   => s
  | .refused _ => s

/-- The state after one command. -/
def after (i : Instr) (s : State) : State := nextOf s (exec i s)

/-- The state after one step. -/
def afterStep (s : State) : State := nextOf s (step s)

/-- The reset state with one access to come. -/
def facing (a : Access) : State := { State.reset with script := [.access a] }

/-- The reset state with `LEN` and `OPW` set. -/
def withLenOpw (len opw : Word) : State := { State.reset with len := len, opw := opw }

/-- The byte windows with some bytes written from offset `a` on. -/
def bytesFrom (a : Nat) (bs : List Byte) : Memory := Memory.putAll [] a bs

/-- The bytes of the windows from offset `a`, `n` of them. -/
def bytesAt (s : State) (a n : Nat) : List Byte := (List.range n).map (fun i => s.byteAt (a + i))

/-- A frame with the bytes a `DES_RESP` checks: LVM, stratum, reference id, origin, receive, transmit. -/
def frame (lvm stratum : Byte) (refid : Word) (org rcv xmt : Timestamp) : List Byte :=
  [lvm, stratum] ++ List.replicate 10 0 ++ wireBytes refid ++ List.replicate 8 0
    ++ (wireBytes org.sec ++ wireBytes org.frac) ++ (wireBytes rcv.sec ++ wireBytes rcv.frac)
    ++ (wireBytes xmt.sec ++ wireBytes xmt.frac)

/-- V43's operands over a frame. -/
def facingFrame (bs : List Byte) : State :=
  { State.reset with
    len := 48, opa := ⟨1000, 0⟩, opb := ⟨1000, 859000000⟩, mem := bytesFrom 0x100 bs }

/-- V43's frame, with LVM, stratum and reference id open. -/
def v43 (lvm stratum : Byte) (refid : Word) : List Byte :=
  frame lvm stratum refid ⟨1000, 0⟩ ⟨1000, 2147500000⟩ ⟨1000, 2577000000⟩

/-- The kiss table of V68. -/
def v68Table : Vector KissEntry Config.kissN :=
  #v[⟨0x44454E59, true, 1⟩, ⟨0x52415445, true, 2⟩, ⟨0x52535452, true, 0⟩, ⟨0x44454E59, true, 0⟩]

/-- V68's state: a stratum 0 frame under that table. -/
def v68 (refid : Word) : State := { facingFrame (v43 0x24 0 refid) with kiss := v68Table }

/-! ### Words from the spec's encoding (R45, R48, R49) -/

theorem test_decode_timestamp_words :
    decode 0b000000000000000000000000_00000001 = .ok .tsNow
      ∧ decode 0b000000000000000000000000_00000010 = .ok .tsEnc
      ∧ decode 0b000000000000000000000000_00000011 = .ok .tsDec
      ∧ decode 0b000000000000000000000000_00000100 = .ok .frac2ms
      ∧ decode 0b000000000000000000000000_00000101 = .ok .ms2frac := ⟨rfl, rfl, rfl, rfl, rfl⟩

theorem test_decode_packet_words :
    decode 0b000000000000000000000000_00010000 = .ok .serReq
      ∧ decode 0b000000000000000000000000_00010001 = .ok .desReq
      ∧ decode 0b000000000000000000000000_00010010 = .ok .desResp
      ∧ decode 0b000000000000000000000000_00010011 = .ok .serResp := ⟨rfl, rfl, rfl, rfl⟩

/-- V75, V76: the unused opcodes, at the edges of their ranges. -/
theorem test_decode_refuses_unused_opcodes :
    decode 0x00000000 = .error .unusedOpcode ∧ decode 0x00000006 = .error .unusedOpcode
      ∧ decode 0x0000000F = .error .unusedOpcode ∧ decode 0x00000014 = .error .unusedOpcode
      ∧ decode 0x000000FF = .error .unusedOpcode := ⟨rfl, rfl, rfl, rfl, rfl⟩

/-- V77: a legal low byte under a nonzero upper part; the same with the top bit. -/
theorem test_decode_refuses_upper_bits :
    decode 0x00000111 = .error .upperBitsNonzero ∧ decode 0x80000001 = .error .upperBitsNonzero := ⟨rfl, rfl⟩

theorem test_encode_words : encode .tsNow = 0x00000001 ∧ encode .ms2frac = 0x00000005 ∧ encode .serResp = 0x00000013 :=
  ⟨rfl, rfl, rfl⟩

/-- The table's numbering, and a number that is no 32-bit word. -/
theorem test_decodeTableWord :
    decodeTableWord 32 0x12 = some .desResp ∧ decodeTableWord 32 0x14 = none
      ∧ decodeTableWord 40 0x100000012 = none := ⟨rfl, rfl, rfl⟩

/-! ### WellFormed (R31, R46) -/

/-- One ill-formed access for each check: a hole, an unaligned offset, a window at register width, a register at byte
width, just past each window, and the excluded widths. -/
theorem test_wf_refuses :
    Access.wf (.r32 0x034) = false ∧ Access.wf (.w32 0x011 0) = false ∧ Access.wf (.w32 0x100 0) = false
      ∧ Access.wf (.w8 0x010 0) = false ∧ Access.wf (.r8 0x130) = false ∧ Access.wf (.r8 0x0C8) = false
      ∧ Access.wf (.oddRead .half 0x010) = false ∧ Access.wf (.oddWrite .double 0x010) = false := by decide

theorem test_wf_accepts :
    Access.wf (.r32 0x000) = true ∧ Access.wf (.w32 0x0BC 0) = true ∧ Access.wf (.w8 0x0C0 0) = true
      ∧ Access.wf (.r8 0x12F) = true := by decide

theorem test_legalWord : legalWord 0x00000006 = false ∧ legalWord 0x00000111 = false ∧ legalWord 0x00000013 = true := by
  decide

/-- Parameter values that break R6 are refused; this hardware's are not. -/
theorem test_params_valid :
    hw.valid = true ∧ Config.Params.valid { hw with fracPerMs := 4294967 } = false
      ∧ Config.Params.valid { hw with modeServer := 3 } = false ∧ Config.Params.valid { hw with kissN := 0 } = false := by
  decide

/-- R6 fixes the order and the widths of the fields, not their places: a frame with the reference id elsewhere is valid, one
whose origin overlaps it or whose transmit time leaves the frame is not. -/
theorem test_params_layout :
    Config.Params.valid { hw with offRefid := 20 } = true ∧ Config.Params.valid { hw with offRefid := 21 } = false
      ∧ Config.Params.valid { hw with offTransmit := 41 } = false := by decide

/-- The canonical form refuses a falling offset, a doubled one, an unmapped one. -/
theorem test_memory_wf_refuses :
    Memory.wf [(0x101, 0), (0x100, 0)] = false ∧ Memory.wf [(0x100, 0), (0x100, 1)] = false
      ∧ Memory.wf [(0x0C8, 0)] = false ∧ Memory.wf [(0x0C0, 1), (0x100, 0)] = true := by decide

/-! ### The port (V78 to V81) -/

/-- V75: `ILLCMD` and nothing else. -/
theorem test_illegal_word_sets_illcmd :
    afterStep (facing (.w32 0x000 0)) = { State.reset with illcmd := true } := by decide

/-- V78: `CMD` reads 0; the host's last value was 7. -/
theorem test_cmd_reads_zero : (afterStep { facing (.r32 0x000) with rdata := 7 }).rdata = 0 := by decide

/-- V79. -/
theorem test_read_only_registers_ignore_writes :
    afterStep (facing (.w32 0x004 5)) = State.reset ∧ afterStep (facing (.w32 0x048 1)) = State.reset
      ∧ afterStep (facing (.w32 0x00C 0)) = State.reset := by decide

/-- V80: the four ill-formed accesses. -/
theorem test_ill_formed_accesses_set_accerr :
    afterStep { facing (.r32 0x034) with rdata := 7 } = { State.reset with accerr := true }
      ∧ afterStep (facing (.w8 0x010 1)) = { State.reset with accerr := true }
      ∧ afterStep (facing (.w32 0x100 1)) = { State.reset with accerr := true }
      ∧ afterStep { facing (.r8 0x130) with rdata := 7 } = { State.reset with accerr := true } := by decide

/-- V81: `FLAGS` still reads 3 after a legal command; R20's bit places. -/
theorem test_flags_survive_commands :
    (after .ms2frac { State.reset with illcmd := true, accerr := true }).readReg .flags = 3
      ∧ State.readReg { State.reset with illcmd := true } .flags = 1
      ∧ State.readReg { State.reset with accerr := true } .flags = 2 := by decide

/-- R22: `KISS_CTL` keeps bits 31, 1, 0 of what is written. -/
theorem test_kiss_ctl_reserved_bits :
    (afterStep (facing (.w32 0x0A4 0xFFFFFFFF))).readReg (.kissCtl 0) = 0x80000003
      ∧ (afterStep (facing (.w32 0x0BC 0x7FFFFFFE))).readReg (.kissCtl 3) = 2 := by decide

/-- A byte written is the byte read, and its neighbour stays unwritten. -/
theorem test_byte_window :
    (afterStep (facing (.w8 0x12F 0xAB))).mem = [(0x12F, 0xAB)]
      ∧ (afterStep { facing (.r8 0x0C7) with mem := [(0x0C7, 0xCD)] }).rdata = 0xCD := by decide

/-- R27: an access while RESET is asserted is dropped; after the release the registers hold R29's values. -/
theorem test_reset_pin :
    afterStep { facing (.w32 0x028 9) with resetPin := true } = { State.reset with resetPin := true }
      ∧ afterStep { State.reset with script := [.reset false], resetPin := true, opw := 9, illcmd := true }
        = { State.reset with resets := 1 } := by decide

/-- R62: program P1's first two triples, from the notation of R60. -/
theorem test_script_triples :
    wr .opw 500 = .access (Access.ofTriple .W32 0x028 0x1F4)
      ∧ command .ms2frac = .access (Access.ofTriple .W32 0x000 5)
      ∧ rd .status = .access (Access.ofTriple .R32 0x004 0)
      ∧ rbWire 7 = .access (Access.ofTriple .R8 0x0C7 0xE0) := by decide

/-- R61: program P4's second `KISS` as the triples it lists; `LDTS`, `MOVTS`, `LDPKT` as R61 spells them out. -/
theorem test_pseudo_instructions :
    kissSet 1 0x52415445 2 = [.access (.w32 0x0A8 0x52415445), .access (.w32 0x0AC 0x80000002)]
      ∧ ldts .C ⟨1, 2⟩ = [.access (.w32 0x020 1), .access (.w32 0x024 2)]
      ∧ movts .A .res ⟨3, 4⟩ = [.access (.r32 0x040), .access (.r32 0x044), .access (.w32 0x010 3), .access (.w32 0x014 4)]
      ∧ (ldpkt [0x24, 0x0F]) = [.access (.w8 0x100 0x24), .access (.w8 0x101 0x0F)] := by decide

/-- The host's own question: the word placed runs as the first command after reset. -/
theorem test_withFetchWord :
    (afterStep (State.reset.withFetchWord 32 0x05)).lastop = 0x05
      ∧ (afterStep (State.reset.withFetchWord 32 0x14)).illcmd = true := by decide

/-! ### The commands, from the vectors -/

/-- V1. -/
theorem test_tsNow : (after .tsNow { State.reset with ht := some ⟨true, 1700000000, 250⟩ }).res
    = ⟨0xE8FE6F80, 0x40001FF0⟩ := by decide

/-- V2 (era rollover), V7 (a whole second). -/
theorem test_tsNow_edges :
    (after .tsNow { State.reset with ht := some ⟨true, 0x7C558180, 0⟩ }).res = ⟨0, 0⟩
      ∧ (after .tsNow { State.reset with ht := some ⟨true, 1700000000, 1000⟩ }).status.code = 9 := by decide

/-- V8. -/
theorem test_tsEnc : bytesAt (after .tsEnc { State.reset with opa := ⟨0x83AA7E80, 0x80003FE0⟩ }) 0x0C0 8
    = [0x83, 0xAA, 0x7E, 0x80, 0x80, 0x00, 0x3F, 0xE0] := by decide

/-- V11. -/
theorem test_tsDec : (after .tsDec { State.reset with
    mem := bytesFrom 0x0C0 [0x00, 0x00, 0x03, 0xE8, 0x00, 0x00, 0xDE, 0xAD] }).res = ⟨1000, 0x0000DEAD⟩ := by decide

/-- V18, V15. -/
theorem test_frac2ms : (after .frac2ms (withLenOpw 0 0x80000000)).resW = 499
    ∧ (after .frac2ms (withLenOpw 0 4294999)).resW = 0 := by decide

/-- V21. -/
theorem test_frac2ms_largest : (after .frac2ms (withLenOpw 0 0xFFFFFFFF)).resW = 999 := by decide

/-- V29, V26. -/
theorem test_ms2frac : (after .ms2frac (withLenOpw 0 999)).resW = 0xFFBEF668
    ∧ (after .ms2frac (withLenOpw 0 250)).resW = 0x40001FF0 := by decide

/-- V30: refused, the old result kept. -/
theorem test_ms2frac_refuses : (after .ms2frac { withLenOpw 0 1000 with resW := 500 }).status.code = 1
    ∧ (after .ms2frac { withLenOpw 0 1000 with resW := 500 }).resW = 500 := by decide

/-- V33: OR, not add. -/
theorem test_serReq : bytesAt (after .serReq { withLenOpw 48 0x12345678 with opa := ⟨0xE8FE6F80, 0x40001FF0⟩ }) 0x100 48
    = [0x23] ++ List.replicate 39 0 ++ [0xE8, 0xFE, 0x6F, 0x80, 0x40, 0x00, 0x1F, 0xF4] := by decide

/-- V36a. -/
theorem test_serReq_short : after .serReq (withLenOpw 47 0xDEADBEEF)
    = { withLenOpw 47 0xDEADBEEF with status := .badParameter, lastop := 0x10 } := by decide

/-- V38b: a response parses, with no content check. -/
theorem test_desReq : (after .desReq (facingFrame (v43 0x24 15 0))).p
    = ⟨0x24, 15, 0, ⟨1000, 0⟩, ⟨1000, 0x80003FE0⟩, ⟨1000, 0x9999E640⟩⟩ := by decide

/-- V38. -/
theorem test_desReq_wrong_length : (after .desReq (withLenOpw 49 0)).status.code = 1
    ∧ (after .desReq (withLenOpw 0xFFFFFFFF 0)).status.code = 1 := by decide

/-- V43: the source's example E5. V47: seconds and fraction of opposite sign. -/
theorem test_desResp :
    (after .desResp (facingFrame (v43 0x24 15 0))).offsetMs = 450
      ∧ (after .desResp (facingFrame (v43 0x24 15 0))).delayMs = 100
      ∧ (after .desResp (facingFrame (frame 0x24 15 0 ⟨1000, 0⟩ ⟨999, 2147500000⟩ ⟨999, 2577000000⟩))).offsetMs
        = 0xFFFFFFFFFFFFFDDA := by decide

/-- V66, V68 to V71, V60, V63, V64, V72. -/
theorem test_desResp_statuses :
    (after .desResp (facingFrame (v43 0x24 0 0x44454E59))).status.code = 7
      ∧ (after .desResp (v68 0x44454E59)).status.code = 5 ∧ (after .desResp (v68 0x52415445)).status.code = 6
      ∧ (after .desResp (v68 0x52535452)).status.code = 4 ∧ (after .desResp (v68 0x58585858)).status.code = 7
      ∧ (after .desResp (facingFrame (v43 0x23 15 0))).status.code = 3
      ∧ (after .desResp (facingFrame (v43 0xE4 15 0))).status.code = 0
      ∧ (after .desResp { v68 0x44454E59 with opa := ⟨1000, 1⟩ }).status.code = 3 := by decide

/-- V39. -/
theorem test_serResp : bytesAt (after .serResp { withLenOpw 48 0 with
      opa := ⟨1000, 0⟩, opb := ⟨1000, 0x80003FE0⟩, opc := ⟨1000, 0x9999E640⟩, opx := 15 }) 0x100 48
    = [0x24, 0x0F] ++ List.replicate 22 0 ++ [0x00, 0x00, 0x03, 0xE8, 0, 0, 0, 0]
      ++ [0x00, 0x00, 0x03, 0xE8, 0x80, 0x00, 0x3F, 0xE0] ++ [0x00, 0x00, 0x03, 0xE8, 0x99, 0x99, 0xE6, 0x40] := by decide

/-- V39a: stratum is `OPX[7:0]`, the reference id follows. -/
theorem test_serResp_kiss : bytesAt (after .serResp { withLenOpw 48 0x44454E59 with opx := 0x100 }) 0x100 16
    = [0x24, 0x00] ++ List.replicate 10 0 ++ [0x44, 0x45, 0x4E, 0x59] := by decide

/-! ### Witnesses: a state and operands that meet the hypotheses of each statement, clause by clause -/

/-- ReleasingResetGivesResetState, both clauses. -/
theorem witness_releasing_reset :
    let s : State := { State.reset with script := [.reset false], resetPin := true, opw := 9, mem := [(0x0C0, 1)] }
    let u : State := { State.reset with script := [.reset false], opw := 9 }
    s.script = .reset false :: [] ∧ s.resetPin = true ∧ u.script = .reset false :: [] ∧ u.resetPin = false := by decide

/-- AccessDuringResetHasNoEffect, both clauses. -/
theorem witness_access_during_reset :
    let s : State := { State.reset with script := [.reset true] }
    let u : State := { facing (.w32 0x000 0x01) with resetPin := true }
    s.script = .reset true :: [] ∧ u.script = .access (.w32 0x000 0x01) :: [] ∧ u.resetPin = true := by decide

/-- NothingRunsByItself. -/
theorem witness_nothing_to_come : State.reset.script = [] := rfl

/-- OpcodeRowsSelectByMaskAndMatch: the first and the last row, each with its own word and with another. -/
theorem witness_opcode_rows :
    (0x00000001 : Word) &&& 0xFFFFFFFF = 0x00000001 ∧ (0x00000013 : Word) &&& 0xFFFFFFFF = 0x00000013
      ∧ (0x00000101 : Word) &&& 0xFFFFFFFF ≠ 0x00000001 := by decide

/-- DecodeAndEncodeAgree: every command is well formed. -/
theorem witness_wf : ∀ i : Instr, i.wf = true := fun _ => rfl

/-- The illegal words as IllegalWordSetsIllcmdOnly lists them. -/
abbrev illegal (w : Word) : Prop :=
  w.extractLsb' 8 24 ≠ 0 ∨ w.extractLsb' 0 8 = 0x00
    ∨ (0x06 ≤ w.extractLsb' 0 8 ∧ w.extractLsb' 0 8 ≤ 0x0F) ∨ (0x14 ≤ w.extractLsb' 0 8)

/-- IllegalWordSetsIllcmdOnly: each disjunct at the edges of its range, and the legal neighbours outside all of them. -/
theorem witness_illegal_words :
    (∀ w ∈ ([0x00000000, 0x00000006, 0x0000000F, 0x00000014, 0x000000FF, 0x00000101, 0x80000013] : List Word), illegal w)
      ∧ (∀ w ∈ ([0x00000001, 0x00000005, 0x00000010, 0x00000013] : List Word), ¬ illegal w)
      ∧ (facing (.w32 0x000 0x06)).script = .access (.w32 0x000 0x06) :: []
      ∧ (facing (.w32 0x000 0x06)).resetPin = false := ⟨by simp [illegal], by simp [illegal], rfl, rfl⟩

/-- StepRunsDecodedCommand: every command's word, and the read of `CMD`. -/
theorem witness_step_runs : ∀ i : Instr,
    let s := facing (.w32 0x000 (encode i))
    s.script = .access (.w32 0x000 (encode i)) :: [] ∧ s.resetPin = false ∧ decode (encode i) = .ok i ∧ i.wf = true := by
  intro i
  cases i <;> exact ⟨rfl, rfl, rfl, rfl⟩

theorem witness_cmd_read :
    (facing (.r32 0x000)).script = .access (.r32 0x000) :: [] ∧ (facing (.r32 0x000)).resetPin = false := by decide

/-- RegisterReadReturnsListedRegister: the list at both ends, the kiss table at both ends. -/
theorem witness_register_read :
    (0x000, (0 : Word)) ∈ [(0x000, (0 : Word)), (0x084, (State.reset.delayMs >>> 32).setWidth 32)]
      ∧ (facing (.r32 0x084)).script = .access (.r32 0x084) :: [] ∧ (facing (.r32 0x084)).resetPin = false
      ∧ (∃ i : Fin 4, 0x0A0 = 0x0A0 + 8 * i.val) ∧ (∃ i : Fin 4, 0x0B8 = 0x0A0 + 8 * i.val)
      ∧ (∃ i : Fin 4, 0x0A4 = 0x0A4 + 8 * i.val) ∧ ∃ i : Fin 4, 0x0BC = 0x0A4 + 8 * i.val := by decide

/-- RegisterWriteRights: a read-only register, the kiss table's two halves, an operand register. -/
theorem witness_register_write :
    0x004 ∈ [0x004, 0x084] ∧ 0x084 ∈ [0x004, 0x084]
      ∧ (facing (.w32 0x004 5)).script = .access (.w32 0x004 5) :: [] ∧ (facing (.w32 0x004 5)).resetPin = false
      ∧ (facing (.w32 0x0BC 5)).script = .access (.w32 (0x0A4 + 8 * (3 : Fin 4).val) 5) :: []
      ∧ (facing (.w32 0x0A0 5)).script = .access (.w32 (0x0A0 + 8 * (0 : Fin 4).val) 5) :: []
      ∧ (0x030, { State.reset with len := 5 }) ∈ [(0x030, { State.reset with len := 5 })]
      ∧ (facing (.w32 0x030 5)).script = .access (.w32 0x030 5) :: [] := by decide

/-- ByteWindowsReadAndWrite: the first and the last byte of both windows, read and written. -/
theorem witness_byte_windows : ∀ off ∈ [0x0C0, 0x0C7, 0x100, 0x12F],
    ((0x0C0 ≤ off ∧ off ≤ 0x0C7) ∨ (0x100 ≤ off ∧ off ≤ 0x12F))
      ∧ (facing (.r8 off)).script = .access (.r8 off) :: [] ∧ (facing (.w8 off 1)).script = .access (.w8 off 1) :: []
      ∧ (facing (.r8 off)).resetPin = false := by decide

/-- IllFormedAccessSetsAccerrOnly: the holes next to registers and windows, and the excluded widths. -/
theorem witness_ill_formed :
    (∀ off ∈ [0x001, 0x034, 0x03C, 0x04C, 0x074, 0x088, 0x09C, 0x0C0, 0x100, 0x130, 0x1000], regAt off = none)
      ∧ (∀ off ∈ [0x000, 0x0BF, 0x0C8, 0x0FF, 0x130],
          ¬ ((0x0C0 ≤ off ∧ off ≤ 0x0C7) ∨ (0x100 ≤ off ∧ off ≤ 0x12F)))
      ∧ (facing (.r32 0x034)).script = .access (.r32 0x034) :: []
      ∧ (facing (.w32 0x100 1)).script = .access (.w32 0x100 1) :: []
      ∧ (facing (.r8 0x130)).script = .access (.r8 0x130) :: []
      ∧ (facing (.w8 0x010 1)).script = .access (.w8 0x010 1) :: []
      ∧ (facing (.oddRead .half 0x010)).script = .access (.oddRead .half 0x010) :: []
      ∧ (facing (.oddWrite .burst 0x100)).script = .access (.oddWrite .burst 0x100) :: []
      ∧ (facing (.r32 0x034)).resetPin = false := by decide

/-- FlagsStickyAndUnreadByCommands: flags set, a step that is no release. -/
theorem witness_flags_sticky :
    let s : State := { facing (.w32 0x000 0x05) with illcmd := true, accerr := true }
    step s = .next (afterStep s) ∧ ¬ (s.resetPin = true ∧ s.script.head? = some (.reset false))
      ∧ s.illcmd = true ∧ s.accerr = true :=
  ⟨rfl, by decide, rfl, rfl⟩

/-- StatusAndLastopWrittenByCommandsOnly, ResultsWrittenBySuccessfulCommandsOnly: a step that runs no command (an operand
write), after a command that did; a command that fails. -/
theorem witness_no_command_step :
    let s : State := { facing (.w32 0x028 7) with status := .badParameter, lastop := 0x05, resW := 3 }
    step s = .next (afterStep s) ∧ ¬ (s.resetPin = true ∧ s.script.head? = some (.reset false))
      ∧ ∀ w i, s.script.head? = some (.access (.w32 0x000 w)) → s.resetPin = false → decode w ≠ .ok i :=
  ⟨rfl, by decide, fun w i h => by
    simp only [facing, List.head?_cons, Option.some.injEq, Event.access.injEq, Access.w32.injEq] at h
    exact absurd h.1 (by decide)⟩

/-- The same with a write to `CMD` that decodes to no command. -/
theorem witness_illegal_command_step :
    let s : State := { facing (.w32 0x000 0x06) with status := .badParameter, lastop := 0x05, resW := 3 }
    step s = .next (afterStep s) ∧ ¬ (s.resetPin = true ∧ s.script.head? = some (.reset false))
      ∧ ∀ w i, s.script.head? = some (.access (.w32 0x000 w)) → s.resetPin = false → decode w ≠ .ok i :=
  ⟨rfl, by decide, fun w i h _ => by
    simp only [facing, List.head?_cons, Option.some.injEq, Event.access.injEq, Access.w32.injEq, true_and] at h
    rw [← h]
    cases i <;> decide⟩

/-- CommandsWriteOnlyTheirResults, CommandsEndWithListedStatuses and all that start from `exec i s = .next t`: every command
answers one, on the reset state. -/
theorem witness_exec_answers : ∀ i : Instr, exec i State.reset = .next (after i State.reset) := by
  intro i
  cases i <;> rfl

/-- CommandsReadOnlyTheirOperands: two states that differ in what `DES_REQ` does not read, a reserved frame byte among it. -/
theorem witness_two_states :
    let s := facingFrame (v43 0x24 15 0)
    let s' : State := { s with
      opa := ⟨7, 8⟩, opw := 9, kiss := v68Table, mem := Memory.put s.mem 0x105 0xAA, illcmd := true }
    s ≠ s' ∧ exec .desReq s = .next (after .desReq s) ∧ exec .desReq s' = .next (after .desReq s') ∧ s.len = s'.len
      ∧ ∀ n ∈ [0, 1, 12, 13, 14, 15] ++ (List.range 24).map (24 + ·), s.byteAt (0x100 + n) = s'.byteAt (0x100 + n) :=
  ⟨by decide, rfl, rfl, rfl, by decide⟩

/-- WrongLengthReadsNoFrameByte: just below, just above, nothing. -/
theorem witness_wrong_lengths :
    (withLenOpw 47 0).len.toNat ≠ 48 ∧ (withLenOpw 49 0).len.toNat ≠ 48 ∧ (withLenOpw 0 0).len.toNat ≠ 48 := by decide

/-- FailedCommandWritesStatusOnly, ResultsWrittenBySuccessfulCommandsOnly: a failing run of every command that can fail. -/
theorem witness_failing_commands :
    let s := withLenOpw 47 1000
    let u : State := { s with ht := some ⟨false, 0, 0⟩ }
    (∀ i ∈ [Instr.ms2frac, .serReq, .desReq, .desResp, .serResp], (after i s).status ≠ .success)
      ∧ exec .desResp s = .next (after .desResp s)
      ∧ exec .tsNow u = .next (after .tsNow u) ∧ (after .tsNow u).status ≠ .success :=
  ⟨by decide, rfl, rfl, by decide⟩

/-- EveryStepKeepsMachineInvariant: a state the invariant holds in, with bytes written and a command to come. -/
theorem witness_invariant :
    let s : State := { facing (.w32 0x000 0x02) with mem := [(0x0C3, 1), (0x100, 2)], lastop := 0x05, status := .badParameter }
    (Memory.wf s.mem = true ∧ s.statusFits = true) ∧ step s = .next (afterStep s) :=
  ⟨by decide, rfl⟩

/-- TsNowConvertsClockSample: the largest good sample; the two failures, at the edge. -/
theorem witness_clock_samples :
    let s : State := { State.reset with ht := some ⟨true, 0xFFFFFFFF, 999⟩ }
    let u : State := { State.reset with ht := some ⟨true, 1700000000, 1000⟩ }
    let v : State := { State.reset with ht := some ⟨false, 1700000000, 250⟩ }
    s.clockSample.ok = true ∧ s.clockSample.ms.toNat < 1000 ∧ 1000 ≤ u.clockSample.ms.toNat ∧ v.clockSample.ok = false := by
  decide

/-- ClockLineFeedsNextTsNowOnly. -/
theorem witness_clock_line :
    ({ State.reset with script := [.ht ⟨true, 1, 2⟩] } : State).script = .ht ⟨true, 1, 2⟩ :: [] := rfl

/-- MsToFracMultipliesOrRefuses, MillisRoundTrip: both sides of the limit, and 0. -/
theorem witness_millis :
    (withLenOpw 0 0).opw.toNat < 1000 ∧ (withLenOpw 0 999).opw.toNat < 1000 ∧ 1000 ≤ (withLenOpw 0 1000).opw.toNat := by
  decide

/-- ScaleConstantRange: the smallest and the largest `K`, the largest count. -/
theorem witness_scale_constant : (4294968 : Nat) ≤ 4294968 ∧ (4294968 : Nat) ≤ 4299266 ∧ (999 : Word).toNat ≤ 999 := by decide

/-- SecondsDifferenceIsSignedMinimalResidue: the largest and the smallest true difference, and the tie. -/
theorem witness_seconds :
    ((2147483647 : Int) - 0 < 2147483648) ∧ (-2147483648 < (0 : Int) - 2147483647)
      ∧ (0x80000000 : Word) - 0 = 0x80000000 := by decide

/-- QuotientTruncatesTowardZero: both signs. -/
theorem witness_quotient : (0 : Int) < 2 ∧ (0 : Int) ≤ 7 ∧ (-7 : Int) < 0 := by decide

/-- SerReqBuildsRequestFrame, SerRespBuildsResponseFrame: the smallest buffer that is large enough, a larger one, the
largest that is not; the edges of the zero bytes and of the frame. -/
theorem witness_lengths :
    48 ≤ (withLenOpw 48 0).len.toNat ∧ 48 ≤ (withLenOpw 4096 0).len.toNat ∧ (withLenOpw 47 0).len.toNat < 48
      ∧ ((1 : Nat) ≤ 1 ∧ (1 : Nat) ≤ 39 ∧ (39 : Nat) ≤ 39) ∧ ((0x0FF : Nat) < 0x100 ∧ (0x12F : Nat) < 0x130) := by decide

/-- DesReqParsesFrame: 48, and both neighbours. -/
theorem witness_exact_length :
    (withLenOpw 48 0).len.toNat = 48 ∧ (withLenOpw 47 0).len.toNat ≠ 48 ∧ (withLenOpw 49 0).len.toNat ≠ 48 := by decide

/-- DesRespChecksInOrder, DesRespComputesOffsetAndDelay: a frame that passes every check, its stratum not 0. -/
theorem witness_response_accepted :
    let s := facingFrame (v43 0x24 15 0)
    s.len.toNat = 48 ∧ s.tsAt 0x118 = s.opa ∧ (s.byteAt 0x100).extractLsb' 3 3 = (4 : BitVec 3)
      ∧ (s.byteAt 0x100).extractLsb' 0 3 = (4 : BitVec 3) ∧ s.byteAt 0x101 ≠ 0 := by decide

/-- DesRespChecksInOrder, the failing side: length, origin, version, mode, each alone wrong. -/
theorem witness_response_refused :
    ({ facingFrame (v43 0x24 15 0) with len := 49 } : State).len.toNat ≠ 48
      ∧ (let s : State := { facingFrame (v43 0x24 15 0) with opa := ⟨1000, 1⟩ }; s.tsAt 0x118 ≠ s.opa)
      ∧ ((facingFrame (v43 0x1C 15 0)).byteAt 0x100).extractLsb' 3 3 ≠ (4 : BitVec 3)
      ∧ ((facingFrame (v43 0x23 15 0)).byteAt 0x100).extractLsb' 0 3 ≠ (4 : BitVec 3) := by decide

/-- KissOfDeathClassifiedByFirstValidEntry: the frame; an entry that is the first match although a later one matches too;
the last entry; none. -/
theorem witness_kiss_of_death :
    (let s := v68 0x44454E59
     s.len.toNat = 48 ∧ s.tsAt 0x118 = s.opa ∧ (s.byteAt 0x100).extractLsb' 3 3 = (4 : BitVec 3)
      ∧ (s.byteAt 0x100).extractLsb' 0 3 = (4 : BitVec 3) ∧ s.byteAt 0x101 = 0
      ∧ s.kiss[0].valid = true ∧ s.kiss[0].code = s.wordAt 0x10C
      ∧ (∀ j : Fin 4, j < (0 : Fin 4) → ¬ (s.kiss[j].valid = true ∧ s.kiss[j].code = s.wordAt 0x10C)))
    ∧ (let s : State := { v68 0x44454E59 with kiss := v68Table.set 0 ⟨0x44454E59, false, 1⟩ }
       s.kiss[3].valid = true ∧ s.kiss[3].code = s.wordAt 0x10C
        ∧ (∀ j : Fin 4, j < (3 : Fin 4) → ¬ (s.kiss[j].valid = true ∧ s.kiss[j].code = s.wordAt 0x10C)))
    ∧ (let s := v68 0x58585858
       ∀ i : Fin 4, ¬ (s.kiss[i].valid = true ∧ s.kiss[i].code = s.wordAt 0x10C)) := by decide

/-- ResponseEchoesTransmitBytes: the request's state, and a server state that holds the echo. -/
theorem witness_echo :
    let s := facingFrame (v43 0x23 0 0)
    let u' : State := { withLenOpw 48 0 with opa := (after .desReq s).p.xmt }
    s.len.toNat = 48 ∧ u'.opa = (after .desReq s).p.xmt ∧ 48 ≤ u'.len.toNat := by decide

/-- ResponseAcceptedEndToEnd: stratum 15, and a stratum whose low byte alone counts. -/
theorem witness_end_to_end :
    (withLenOpw 48 0).len.toNat = 48 ∧ (15 : Word).extractLsb' 0 8 ≠ (0 : BitVec 8)
      ∧ (0xFFFFFF01 : Word).extractLsb' 0 8 ≠ (0 : BitVec 8) := by decide

end Sys2Proof.Tests
end

section
/-! The family `10_state.md`: what a command and a step leave alone, column by column, and the statements about reset, the
flags, `STATUS`, the results and the byte windows. -/

namespace Sys2Proof.Machine

/-! ### What a command leaves, read off `ExecEffect` (R17, R111, R112) -/

section ExecEffect

variable {s t : State} {i : Instr}

/-- What no command writes, whatever it ends with (R17, R20): the operands, the kiss table, the flags, and the inputs and
bookkeeping beside the clock port. -/
structure Untouched (s t : State) : Prop where
  opa : t.opa = s.opa
  opb : t.opb = s.opb
  opc : t.opc = s.opc
  opw : t.opw = s.opw
  opx : t.opx = s.opx
  len : t.len = s.len
  kiss : t.kiss = s.kiss
  illcmd : t.illcmd = s.illcmd
  accerr : t.accerr = s.accerr
  resetPin : t.resetPin = s.resetPin
  script : t.script = s.script
  rdata : t.rdata = s.rdata
  resets : t.resets = s.resets

theorem ExecEffect.untouched (h : ExecEffect s i t) : Untouched s t := by
  cases h <;> constructor <;> simp [State.putTs]

theorem ExecEffect.lastop_eq (h : ExecEffect s i t) : t.lastop = i.opcode := by
  cases h <;> rfl

theorem ExecEffect.mayEndWith_status (h : ExecEffect s i t) : mayEndWith i t.status = true := by
  cases h with
  | failed _ _ _ _ hm => exact hm
  | _ => rfl

theorem ExecEffect.clockPort_eq (h : ExecEffect s i t) (hi : i ≠ .tsNow) : t.ht = s.ht ∧ t.clkReads = s.clkReads := by
  cases h with
  | clockFailed | tsNow => exact absurd rfl hi
  | _ => simp [State.putTs]

theorem ExecEffect.res_eq (h : ExecEffect s i t) (h1 : i ≠ .tsNow) (h2 : i ≠ .tsDec) (h3 : i ≠ .serReq) :
    t.res = s.res := by
  cases h with
  | tsNow => exact absurd rfl h1
  | tsDec => exact absurd rfl h2
  | serReq => exact absurd rfl h3
  | _ => simp [State.putTs]

theorem ExecEffect.resW_eq (h : ExecEffect s i t) (h1 : i ≠ .frac2ms) (h2 : i ≠ .ms2frac) : t.resW = s.resW := by
  cases h with
  | frac2ms => exact absurd rfl h1
  | ms2frac => exact absurd rfl h2
  | _ => simp [State.putTs]

theorem ExecEffect.p_eq (h : ExecEffect s i t) (h1 : i ≠ .desReq) (h2 : i ≠ .desResp) : t.p = s.p := by
  cases h with
  | desReq => exact absurd rfl h1
  | desResp => exact absurd rfl h2
  | _ => simp [State.putTs]

theorem ExecEffect.offsetDelay_eq (h : ExecEffect s i t) (hi : i ≠ .desResp) :
    t.offsetMs = s.offsetMs ∧ t.delayMs = s.delayMs := by
  cases h with
  | desResp => exact absurd rfl hi
  | _ => simp [State.putTs]

theorem ExecEffect.byteAt_eq (h : ExecEffect s i t) (h1 : i ≠ .tsEnc) (h2 : i ≠ .serReq) (h3 : i ≠ .serResp) (a : Nat) :
    t.byteAt a = s.byteAt a := by
  cases h with
  | tsEnc => exact absurd rfl h1
  | serReq => exact absurd rfl h2
  | serResp => exact absurd rfl h3
  | _ => simp

theorem ExecEffect.byteAt_outside_wire (h : ExecEffect s .tsEnc t) (a : Nat) (ha : a < 0x0C0 ∨ 0x0C7 < a) :
    t.byteAt a = s.byteAt a := by
  cases h with
  | failed => rfl
  | tsEnc => rw [byteAt_finish, byteAt_putTs, if_neg (by omega)]

theorem ExecEffect.byteAt_outside_pbuf (h : ExecEffect s i t) (hi : i = .serReq ∨ i = .serResp) (a : Nat)
    (ha : a < 0x100 ∨ 0x12F < a) : t.byteAt a = s.byteAt a := by
  cases h with
  | failed => rfl
  | serReq =>
    rw [byteAt_finish, byteAt_setRes, byteAt_setMem_buildRequest, byteAt_buildRequest, if_neg (by omega),
      if_neg (by omega), if_neg (by omega)]
  | serResp =>
    rw [byteAt_finish, byteAt_setMem_buildResponse, byteAt_buildResponse, if_neg (by omega), if_neg (by omega),
      if_neg (by omega), if_neg (by omega), if_neg (by omega), if_neg (by omega), if_neg (by omega)]
  | _ => simp at hi

/-- A command that ends with any status but `Success` leaves every result register (R133). -/
theorem ExecEffect.results_eq_of_failed (h : ExecEffect s i t) (hs : t.status ≠ .success) :
    t.res = s.res ∧ t.resW = s.resW ∧ t.p = s.p ∧ t.offsetMs = s.offsetMs ∧ t.delayMs = s.delayMs := by
  cases h with
  | failed | clockFailed => exact ⟨rfl, rfl, rfl, rfl, rfl⟩
  | _ => exact absurd rfl hs

/-- Every command keeps the canonical form of the byte windows (log entry 7). -/
theorem ExecEffect.wf_mem (h : ExecEffect s i t) (hm : Memory.wf s.mem = true) : Memory.wf t.mem = true := by
  cases h with
  | tsEnc => simpa using wf_putTs_wire s s.opa hm
  | serReq => simpa using wf_buildRequest s (asSent s.opa s.opw) hm
  | serResp => simpa using wf_buildResponse s hm
  | _ => simpa using hm

/-- Every `TS_NOW`, good or failed, takes the sample it was given: the next one is free (R26, U6). -/
theorem ExecEffect.clockSample_tsNow (h : ExecEffect s .tsNow t) :
    t.clockSample = Config.freeClock (s.clkReads + 1) := by
  cases h with
  | failed _ _ hi => exact absurd rfl hi
  | clockFailed | tsNow => rfl

end ExecEffect

/-! ### `STATUS` agrees with `LASTOP` after a command -/

/-- The opcode map read back and forth (R48). -/
theorem instrOfOpcode_opcode (i : Instr) : instrOfOpcode i.opcode.toNat = some i := by
  cases i <;> rfl

theorem statusFits_of_lastop (t : State) (i : Instr) (h : t.lastop = i.opcode) :
    t.statusFits = mayEndWith i t.status := by
  simp only [State.statusFits, h, instrOfOpcode_opcode]

theorem inv_of_execEffect {s t : State} {i : Instr} (h : ExecEffect s i t) (hm : Memory.wf s.mem = true) : t.Inv :=
  ⟨h.wf_mem hm, (statusFits_of_lastop t i h.lastop_eq).trans h.mayEndWith_status⟩

/-! ### What neither a command nor the release of RESET writes (R14, R15, R16, R19) -/

/-- `STATUS`, `LASTOP` and every result register hold what they held. -/
structure KeepsOutputs (s t : State) : Prop where
  status : t.status = s.status
  lastop : t.lastop = s.lastop
  res : t.res = s.res
  resW : t.resW = s.resW
  p : t.p = s.p
  offsetMs : t.offsetMs = s.offsetMs
  delayMs : t.delayMs = s.delayMs

theorem KeepsOutputs.of_setScript {s t : State} {es : List Event} (h : KeepsOutputs (s.setScript es) t) :
    KeepsOutputs s t :=
  ⟨h.status, h.lastop, h.res, h.resW, h.p, h.offsetMs, h.delayMs⟩

theorem KeepsOutputs.statusFits_eq {s t : State} (h : KeepsOutputs s t) : t.statusFits = s.statusFits := by
  simp only [State.statusFits, h.status, h.lastop]

section PortEffect

variable {s t : State}

theorem PortEffect.keepsOutputs (h : PortEffect s t) : KeepsOutputs s t := by
  cases h with
  | wrote r v => constructor <;> rw [writeReg_frame]
  | _ => constructor <;> rfl

theorem PortEffect.wf_mem (h : PortEffect s t) (hm : Memory.wf s.mem = true) : Memory.wf t.mem = true := by
  cases h with
  | stored off b hb =>
    have hw := wf_writeByte off b s hm
    rwa [writeByte, if_pos hb] at hw
  | wrote r v => rw [writeReg_frame]; exact hm
  | _ => exact hm

/-- An access that runs no command sets flags and clears none (R20). -/
theorem PortEffect.flags_sticky (h : PortEffect s t) :
    (s.illcmd = true → t.illcmd = true) ∧ (s.accerr = true → t.accerr = true) := by
  cases h with
  | wrote r v => rw [writeReg_frame]; exact ⟨id, id⟩
  | illegal => exact ⟨fun _ => rfl, id⟩
  | illWrite | illRead => exact ⟨id, fun _ => rfl⟩
  | replied | stored => exact ⟨id, id⟩

end PortEffect

/-! ### What one step can leave, once for all events -/

/-- The events of `step_cases` by the state they leave. `passed` is an access met while RESET is asserted, or the release of
a RESET that was not asserted (log entry 6). -/
inductive StepEffect (s : State) : State → Prop where
  | waited (hs : s.script = []) : StepEffect s s
  | passed (e : Event) (es : List Event) (hs : s.script = e :: es) : StepEffect s (s.setScript es)
  | ran (w : Word) (i : Instr) (es : List Event) (t : State) (hs : s.script = .access (.w32 0x000 w) :: es)
    (hr : s.resetPin = false) (hd : decode w = .ok i) (he : ExecEffect (s.setScript es) i t) : StepEffect s t
  | port (a : Access) (es : List Event) (t : State) (hs : s.script = .access a :: es) (hr : s.resetPin = false)
    (he : PortEffect (s.setScript es) t) : StepEffect s t
  | clock (c : Config.ClockSample) (es : List Event) (hs : s.script = .ht c :: es) :
    StepEffect s ((s.setScript es).presentClock c)
  | asserted (es : List Event) (hs : s.script = .reset true :: es) : StepEffect s (s.setScript es).assertReset
  | released (es : List Event) (hs : s.script = .reset false :: es) (hr : s.resetPin = true) :
    StepEffect s (s.setScript es).releaseReset

/-- Releasing RESET acts only where it was asserted (R27, log entry 6). -/
theorem driveReset_false (s : State) : driveReset false s = if s.resetPin then s.releaseReset else s := rfl

theorem stepEffect_of_step {s t : State} (h : step s = .next t) : StepEffect s t := by
  rcases step_cases s with ⟨hs, hx⟩ | ⟨e, es, hs, hx⟩
  · cases h.symm.trans hx
    exact .waited hs
  rcases hx with ⟨a, -, -, hx⟩ | ⟨w, i, rfl, hr, hd, hx⟩ | ⟨a, u, rfl, hr, hx, hu⟩ | ⟨c, rfl, hx⟩ | ⟨b, rfl, hx⟩
  · cases h.symm.trans hx
    exact .passed e es hs
  · exact .ran w i es t hs hr hd (effect_of_exec i _ t (hx.symm.trans h))
  · cases h.symm.trans hx
    exact .port a es t hs hr hu
  · cases h.symm.trans hx
    exact .clock c es hs
  · cases h.symm.trans hx
    cases b with
    | true => exact .asserted es hs
    | false =>
      rw [driveReset_false]
      split
      · rename_i hr; exact .released es hs hr
      · exact .passed _ es hs

/-- A step that is neither a legal command nor the release of RESET writes no status and no result. -/
theorem step_keepsOutputs {s t : State} (h : step s = .next t)
    (hr : ¬ (s.resetPin = true ∧ s.script.head? = some (.reset false)))
    (hc : ∀ w i, s.script.head? = some (.access (.w32 0x000 w)) → s.resetPin = false → decode w ≠ .ok i) :
    KeepsOutputs s t := by
  cases stepEffect_of_step h with
  | ran w i es t hs hp hd he => exact absurd hd (hc w i (by rw [hs]; rfl) hp)
  | port a es t hs hp he => exact he.keepsOutputs.of_setScript
  | released es hs hp => exact absurd ⟨hp, by rw [hs]; rfl⟩ hr
  | waited | passed | clock | asserted => constructor <;> rfl

/-- Only the release of RESET clears a flag (R20). -/
theorem step_flags_sticky {s t : State} (h : step s = .next t)
    (hr : ¬ (s.resetPin = true ∧ s.script.head? = some (.reset false))) :
    (s.illcmd = true → t.illcmd = true) ∧ (s.accerr = true → t.accerr = true) := by
  cases stepEffect_of_step h with
  | ran w i es t hs hp hd he => exact ⟨he.untouched.illcmd.trans, he.untouched.accerr.trans⟩
  | port a es t hs hp he => exact he.flags_sticky
  | released es hs hp => exact absurd ⟨hp, by rw [hs]; rfl⟩ hr
  | waited | passed | clock | asserted => exact ⟨id, id⟩

/-- The reset state meets the invariant, whatever the inputs and counters beside the block hold. -/
theorem inv_releaseReset (s : State) : s.releaseReset.Inv := ⟨wf_reset, rfl⟩

/-- One step keeps the invariant: a command sets up both halves anew or stores inside the windows, the release gives the
reset state, every other event leaves `STATUS` and `LASTOP`. -/
theorem step_keeps_inv {s t : State} (hi : s.Inv) (h : step s = .next t) : t.Inv := by
  obtain ⟨hm, hf⟩ := hi
  cases stepEffect_of_step h with
  | ran w i es t hs hp hd he => exact inv_of_execEffect he hm
  | port a es t hs hp he => exact ⟨he.wf_mem hm, he.keepsOutputs.statusFits_eq.trans hf⟩
  | released es hs hp => exact inv_releaseReset _
  | waited | passed | clock | asserted => exact ⟨hm, hf⟩

/-! ### What a command does not read: the flags, `STATUS`, `LASTOP` -/

/-- The state with both flags replaced. -/
def State.withFlags (s : State) (x y : Bool) : State := { s with illcmd := x, accerr := y }

section WithFlags

variable (s : State) (x y : Bool)

/-! Every operand a command reads is the same under other flags. -/

@[simp] theorem State.withFlags_opa : (s.withFlags x y).opa = s.opa := rfl
@[simp] theorem State.withFlags_opw : (s.withFlags x y).opw = s.opw := rfl
@[simp] theorem State.withFlags_lenFits : (s.withFlags x y).lenFits = s.lenFits := rfl
@[simp] theorem State.withFlags_lenExact : (s.withFlags x y).lenExact = s.lenExact := rfl
@[simp] theorem State.withFlags_clockSample : (s.withFlags x y).clockSample = s.clockSample := rfl
@[simp] theorem State.withFlags_tsAt (a : Nat) : (s.withFlags x y).tsAt a = s.tsAt a := rfl
@[simp] theorem State.withFlags_parseFrame : (s.withFlags x y).parseFrame = s.parseFrame := rfl
@[simp] theorem responseStatus_withFlags (f : Frame) : responseStatus (s.withFlags x y) f = responseStatus s f := rfl

/-! Every write of a command commutes with replacing the flags. -/

@[simp] theorem finish_withFlags (i : Instr) (st : Status) :
    (s.withFlags x y).finish i st = (s.finish i st).withFlags x y := rfl

@[simp] theorem clockTaken_withFlags : (s.withFlags x y).clockTaken = s.clockTaken.withFlags x y := rfl

@[simp] theorem setRes_withFlags (ts : Timestamp) : (s.withFlags x y).setRes ts = (s.setRes ts).withFlags x y := rfl

@[simp] theorem setResW_withFlags (v : Word) : (s.withFlags x y).setResW v = (s.setResW v).withFlags x y := rfl

@[simp] theorem setFrame_withFlags (f : Frame) : (s.withFlags x y).setFrame f = (s.setFrame f).withFlags x y := rfl

@[simp] theorem putBytes_withFlags (a : Nat) (bs : List Byte) :
    (s.withFlags x y).putBytes a bs = (s.putBytes a bs).withFlags x y := rfl

@[simp] theorem acceptResponse_withFlags (f : Frame) :
    (s.withFlags x y).acceptResponse f = (s.acceptResponse f).withFlags x y := rfl

@[simp] theorem buildRequest_withFlags (sent : Timestamp) :
    (s.withFlags x y).buildRequest sent = (s.buildRequest sent).withFlags x y := by
  simp only [State.buildRequest, State.clearFrame, State.memWrite1, State.tsWrite, State.putTs, putBytes_withFlags]

@[simp] theorem buildResponse_withFlags : (s.withFlags x y).buildResponse = s.buildResponse.withFlags x y := by
  simp only [State.buildResponse, State.clearFrame, State.memWrite1, State.memWrite4, State.tsWrite, State.putTs,
    putBytes_withFlags]
  rfl

/-- No command reads the flags (R20): replacing them before the command or after it is the same. -/
theorem exec_withFlags (i : Instr) :
    ∃ t, exec i s = .next t ∧ exec i (s.withFlags x y) = .next (t.withFlags x y) := by
  cases i with
  | tsEnc => exact ⟨_, rfl, by simp [exec, execTsEnc, State.putTs]⟩
  | tsDec => exact ⟨_, rfl, by simp [exec, execTsDec]⟩
  | frac2ms => exact ⟨_, rfl, by simp [exec, execFrac2Ms]⟩
  | tsNow =>
    refine ⟨_, rfl, ?_⟩
    by_cases h : s.clockSample.ok = false ∨ millisOk s.clockSample.ms = false <;> simp [exec, execTsNow, h]
  | ms2frac => exact ⟨_, rfl, by cases h : millisOk s.opw <;> simp [exec, execMs2Frac, h]⟩
  | serReq => exact ⟨_, rfl, by cases h : s.lenFits <;> simp [exec, execSerReq, h]⟩
  | desReq => exact ⟨_, rfl, by cases h : s.lenExact <;> simp [exec, execDesReq, h]⟩
  | serResp => exact ⟨_, rfl, by cases h : s.lenFits <;> simp [exec, execSerResp, h]⟩
  | desResp =>
    refine ⟨_, rfl, ?_⟩
    cases h : s.lenExact with
    | false => simp [exec, execDesResp, h]
    | true => by_cases hs : responseStatus s s.parseFrame = .success <;> simp [exec, execDesResp, h, hs]

end WithFlags

/-- No command reads `STATUS` or `LASTOP`, and `finish` replaces both (R111). -/
theorem exec_overwrites_status_lastop (i : Instr) (s : State) (x : Status) (y : Byte) :
    exec i { s with status := x, lastop := y } = exec i s := by
  cases i <;> rfl

/-! ### What a command reads, command by command (R17) -/

section Operands

variable {s s' t t' : State}

/-- The status a command ends with is the one it finishes with, whatever it wrote before (R111). -/
theorem finish_status_eq (u v : State) (i : Instr) (st : Status) : (u.finish i st).status = (v.finish i st).status := rfl

/-- Two runs that fail with the same status agree, whatever success would have had to show (R116). -/
theorem agree_of_failed {i : Instr} {u u' : State} {st : Status} {P : Prop} (h : exec i s = .next t)
    (h' : exec i s' = .next t') (hu : exec i s = .next (u.finish i st)) (hu' : exec i s' = .next (u'.finish i st))
    (hst : st ≠ .success) : t.status = t'.status ∧ (t.status = .success → P) := by
  cases h.symm.trans hu
  cases h'.symm.trans hu'
  exact ⟨finish_status_eq _ _ _ _, fun hs => absurd hs hst⟩

theorem tsNow_reads (h : exec .tsNow s = .next t) (h' : exec .tsNow s' = .next t')
    (hc : s.clockSample = s'.clockSample) :
    t.status = t'.status ∧ (t.status = .success → t.res = t'.res) := by
  by_cases hk : s.clockSample.ok = true ∧ millisOk s.clockSample.ms = true
  · obtain ⟨hk, hm⟩ := hk
    rw [exec_tsNow_ok s hk hm] at h
    rw [exec_tsNow_ok s' (hc ▸ hk) (hc ▸ hm)] at h'
    cases h; cases h'
    exact ⟨finish_status_eq _ _ _ _, fun _ => by simp only [State.finish_res, State.setRes_res, hc]⟩
  · have hf : s.clockSample.ok = false ∨ millisOk s.clockSample.ms = false := by
      rwa [not_and_or, Bool.not_eq_true, Bool.not_eq_true] at hk
    exact agree_of_failed h h' (exec_tsNow_fail s hf) (exec_tsNow_fail s' (hc ▸ hf)) (by decide)

theorem tsEnc_reads (h : exec .tsEnc s = .next t) (h' : exec .tsEnc s' = .next t') (ha : s.opa = s'.opa) :
    t.status = t'.status ∧ ∀ n, n < 8 → t.byteAt (0x0C0 + n) = t'.byteAt (0x0C0 + n) := by
  rw [exec_tsEnc] at h h'
  cases h; cases h'
  refine ⟨finish_status_eq _ _ _ _, fun n hn => ?_⟩
  have hin : 0x0C0 ≤ 0x0C0 + n ∧ 0x0C0 + n < 0x0C0 + 8 := by omega
  simp only [byteAt_finish, byteAt_putTs, if_pos hin, ha]

theorem tsDec_reads (h : exec .tsDec s = .next t) (h' : exec .tsDec s' = .next t')
    (hb : ∀ n, n < 8 → s.byteAt (0x0C0 + n) = s'.byteAt (0x0C0 + n)) : t.status = t'.status ∧ t.res = t'.res := by
  rw [exec_tsDec] at h h'
  cases h; cases h'
  exact ⟨finish_status_eq _ _ _ _, tsAt_congr s' s 0x0C0 hb⟩

theorem frac2ms_reads (h : exec .frac2ms s = .next t) (h' : exec .frac2ms s' = .next t') (hw : s.opw = s'.opw) :
    t.status = t'.status ∧ t.resW = t'.resW := by
  rw [exec_frac2ms] at h h'
  cases h; cases h'
  exact ⟨finish_status_eq _ _ _ _, by simp only [State.finish_resW, State.setResW_resW, hw]⟩

theorem ms2frac_reads (h : exec .ms2frac s = .next t) (h' : exec .ms2frac s' = .next t') (hw : s.opw = s'.opw) :
    t.status = t'.status ∧ (t.status = .success → t.resW = t'.resW) := by
  cases hm : millisOk s.opw with
  | true =>
    rw [exec_ms2frac_ok s hm] at h
    rw [exec_ms2frac_ok s' (hw ▸ hm)] at h'
    cases h; cases h'
    exact ⟨finish_status_eq _ _ _ _, fun _ => by simp only [State.finish_resW, State.setResW_resW, hw]⟩
  | false =>
    exact agree_of_failed h h' (exec_ms2frac_refused s hm) (exec_ms2frac_refused s' (hw ▸ hm)) (by decide)

/-- `LEN` decides both length checks (R78). -/
theorem lenFits_congr (hl : s.len = s'.len) : s'.lenFits = s.lenFits := by rw [State.lenFits, State.lenFits, hl]

theorem lenExact_congr (hl : s.len = s'.len) : s'.lenExact = s.lenExact := by rw [State.lenExact, State.lenExact, hl]

/-- The as-sent time takes the upper half of the correlator only (R79). -/
theorem asSent_congr (a : Timestamp) {v v' : Word} (h : v.extractLsb' 16 16 = v'.extractLsb' 16 16) :
    asSent a v = asSent a v' := by
  have hf : (asSent a v).frac = (asSent a v').frac := by rw [asSent_frac, asSent_frac, h]
  exact congrArg (Timestamp.mk a.sec) hf

theorem byteAt_buildRequest_congr (s s' : State) (sent : Timestamp) (n : Nat) (hn : n < 48) :
    (s.buildRequest sent).byteAt (0x100 + n) = (s'.buildRequest sent).byteAt (0x100 + n) := by
  have hin : 0x100 ≤ 0x100 + n ∧ 0x100 + n < 0x130 := by omega
  simp only [byteAt_buildRequest, if_pos hin]

theorem byteAt_buildResponse_congr (ha : s.opa = s'.opa) (hb : s.opb = s'.opb) (hc : s.opc = s'.opc)
    (hw : s.opw = s'.opw) (hx : s.opx.extractLsb' 0 8 = s'.opx.extractLsb' 0 8) (n : Nat) (hn : n < 48) :
    s.buildResponse.byteAt (0x100 + n) = s'.buildResponse.byteAt (0x100 + n) := by
  have hin : 0x100 ≤ 0x100 + n ∧ 0x100 + n < 0x130 := by omega
  simp only [byteAt_buildResponse, if_pos hin, ha, hb, hc, hw, hx]

theorem serReq_reads (h : exec .serReq s = .next t) (h' : exec .serReq s' = .next t') (ha : s.opa = s'.opa)
    (hw : s.opw.extractLsb' 16 16 = s'.opw.extractLsb' 16 16) (hl : s.len = s'.len) :
    t.status = t'.status
      ∧ (t.status = .success → t.res = t'.res ∧ ∀ n, n < 48 → t.byteAt (0x100 + n) = t'.byteAt (0x100 + n)) := by
  cases hf : s.lenFits with
  | true =>
    rw [exec_serReq_fits s hf] at h
    rw [exec_serReq_fits s' ((lenFits_congr hl).trans hf), ← ha, ← asSent_congr s.opa hw] at h'
    cases h; cases h'
    refine ⟨finish_status_eq _ _ _ _, fun _ => ⟨rfl, fun n hn => ?_⟩⟩
    simp only [byteAt_finish, byteAt_setRes, byteAt_setMem_buildRequest]
    exact byteAt_buildRequest_congr s s' _ n hn
  | false =>
    exact agree_of_failed h h' (exec_serReq_short s hf) (exec_serReq_short s' ((lenFits_congr hl).trans hf)) (by decide)

theorem desReq_reads (h : exec .desReq s = .next t) (h' : exec .desReq s' = .next t') (hl : s.len = s'.len)
    (hp : s.parseFrame = s'.parseFrame) :
    t.status = t'.status ∧ (t.status = .success → t.p = t'.p) := by
  cases hf : s.lenExact with
  | true =>
    rw [exec_desReq_exact s hf] at h
    rw [exec_desReq_exact s' ((lenExact_congr hl).trans hf)] at h'
    cases h; cases h'
    exact ⟨finish_status_eq _ _ _ _, fun _ => hp⟩
  | false =>
    exact agree_of_failed h h' (exec_desReq_wrong s hf) (exec_desReq_wrong s' ((lenExact_congr hl).trans hf)) (by decide)

theorem responseStatus_congr (ha : s.opa = s'.opa) (hk : s.kiss = s'.kiss) (f : Frame) :
    responseStatus s f = responseStatus s' f := by
  simp only [responseStatus, ha, hk]

/-- The offset and the delay come from the frame, `OPA` and `OPB` (R85, R88, R89). -/
theorem acceptResponse_congr (ha : s.opa = s'.opa) (hb : s.opb = s'.opb) (f : Frame) :
    (s.acceptResponse f).offsetMs = (s'.acceptResponse f).offsetMs
      ∧ (s.acceptResponse f).delayMs = (s'.acceptResponse f).delayMs := by
  simp only [State.acceptResponse, State.setOffsetDelay_offsetMs, State.setOffsetDelay_delayMs, ha, hb, and_self]

theorem desResp_reads (h : exec .desResp s = .next t) (h' : exec .desResp s' = .next t') (ha : s.opa = s'.opa)
    (hb : s.opb = s'.opb) (hl : s.len = s'.len) (hk : s.kiss = s'.kiss) (hp : s.parseFrame = s'.parseFrame) :
    t.status = t'.status
      ∧ (t.status = .success → t.p = t'.p ∧ t.offsetMs = t'.offsetMs ∧ t.delayMs = t'.delayMs) := by
  have hr : responseStatus s' s'.parseFrame = responseStatus s s.parseFrame := by
    rw [← hp, responseStatus_congr ha hk]
  cases hf : s.lenExact with
  | true =>
    have hf' := (lenExact_congr hl).trans hf
    by_cases hs : responseStatus s s.parseFrame = .success
    · rw [exec_desResp_accepted s hf hs] at h
      rw [exec_desResp_accepted s' hf' (hr.trans hs), ← hp] at h'
      cases h; cases h'
      exact ⟨finish_status_eq _ _ _ _, fun _ => ⟨rfl, acceptResponse_congr ha hb _⟩⟩
    · exact agree_of_failed h h' (exec_desResp_rejected s hf hs) (hr ▸ exec_desResp_rejected s' hf' (hr ▸ hs)) hs
  | false =>
    exact agree_of_failed h h' (exec_desResp_wrong s hf) (exec_desResp_wrong s' ((lenExact_congr hl).trans hf)) (by decide)

theorem serResp_reads (h : exec .serResp s = .next t) (h' : exec .serResp s' = .next t') (ha : s.opa = s'.opa)
    (hb : s.opb = s'.opb) (hc : s.opc = s'.opc) (hw : s.opw = s'.opw)
    (hx : s.opx.extractLsb' 0 8 = s'.opx.extractLsb' 0 8) (hl : s.len = s'.len) :
    t.status = t'.status
      ∧ (t.status = .success → ∀ n, n < 48 → t.byteAt (0x100 + n) = t'.byteAt (0x100 + n)) := by
  cases hf : s.lenFits with
  | true =>
    rw [exec_serResp_fits s hf] at h
    rw [exec_serResp_fits s' ((lenFits_congr hl).trans hf)] at h'
    cases h; cases h'
    refine ⟨finish_status_eq _ _ _ _, fun _ n hn => ?_⟩
    simp only [byteAt_finish, byteAt_setMem_buildResponse]
    exact byteAt_buildResponse_congr ha hb hc hw hx n hn
  | false =>
    exact agree_of_failed h h' (exec_serResp_short s hf) (exec_serResp_short s' ((lenFits_congr hl).trans hf)) (by decide)

end Operands

/-! ### How the status registers read (R19, R20) -/

theorem flagsWord_eq (x y : Bool) :
    flagsWord x y = (if x then 0x00000001 else 0) + (if y then 0x00000002 else 0) := by
  cases x <;> cases y <;> rfl

/-! ### One event at the head of the script -/

theorem step_reset (s : State) (b : Bool) (es : List Event) (hs : s.script = .reset b :: es) :
    step s = .next (driveReset b (s.setScript es)) := by
  simp only [step, hs, runEvent]

theorem step_ht (s : State) (c : Config.ClockSample) (es : List Event) (hs : s.script = .ht c :: es) :
    step s = .next ((s.setScript es).presentClock c) := by
  simp only [step, hs, runEvent]

/-- `CMD` keeps nothing, so it reads 0 (R13). -/
theorem runAccess_r32_cmd (s : State) : runAccess (.r32 0x000) s = .next (s.reply 0) := rfl

theorem runAccess_r8 (s : State) (off : Nat) (h : byteMapped off = true) :
    runAccess (.r8 off) s = .next (s.reply ((s.byteAt off).setWidth 32)) := by
  rw [runAccess, readByte, if_pos h]

theorem runAccess_w8 (s : State) (off : Nat) (b : Byte) (h : byteMapped off = true) :
    runAccess (.w8 off b) s = .next (s.putBytes off [b]) := by
  rw [runAccess, writeByte, if_pos h]

/-! ### The statements -/

/-- Settles O24: `StepEffect` event by event. -/
theorem everyStepKeepsMachineInvariant : Obligations.EveryStepKeepsMachineInvariant :=
  fun _ _ hi h => step_keeps_inv hi h

/-- Settles O12: a read replies the byte, a write is `putBytes` of one byte. -/
theorem byteWindowsReadAndWrite : Obligations.ByteWindowsReadAndWrite := by
  intro s off es hoff hr
  have hm : byteMapped off = true := (byteMapped_iff off).2 hoff
  refine ⟨fun hs => ?_, fun b hs => ⟨(s.setScript es).putBytes off [b], ?_, rfl, ?_, fun a ha => ?_⟩⟩
  · rw [step_access s _ es hs hr, runAccess_r8 _ off hm]
    rfl
  · rw [step_access s _ es hs hr, runAccess_w8 _ off b hm]
  · exact byteAt_putBytes_inside (s.setScript es) off 0 [b] (by simp)
  · rw [byteAt_putBytes_outside _ _ _ _ (by simp; omega), byteAt_setScript]

/-- Settles O14: stickiness from `StepEffect`, independence from `exec_withFlags`. -/
theorem flagsStickyAndUnreadByCommands : Obligations.FlagsStickyAndUnreadByCommands := by
  refine ⟨fun s t => step_flags_sticky, fun i s x y => ?_, fun s => flagsWord_eq s.illcmd s.accerr⟩
  obtain ⟨t, ht, hxy⟩ := exec_withFlags s x y i
  have hu := (effect_of_exec i s t ht).untouched
  exact ⟨t, ht, hu.illcmd, hu.accerr, hxy⟩

/-- Settles O15: `finish` writes both registers, no other event does. -/
theorem statusAndLastopWrittenByCommandsOnly : Obligations.StatusAndLastopWrittenByCommandsOnly := by
  refine ⟨fun i s t h => ?_, exec_overwrites_status_lastop, fun s t h hr hc => ?_, fun s => ⟨?_, ?_⟩, rfl, fun i => ?_⟩
  · rw [(effect_of_exec i s t h).lastop_eq]
    rfl
  · have hk := step_keepsOutputs h hr hc
    exact ⟨hk.status, hk.lastop⟩
  · exact BitVec.toNat_setWidth_of_le (by decide)
  · exact BitVec.toNat_setWidth_of_le (by decide)
  · rw [show decode 0 = .error .unusedOpcode from rfl]
    exact nofun

/-- Settles O16: the two ways a step can write no result. -/
theorem resultsWrittenBySuccessfulCommandsOnly : Obligations.ResultsWrittenBySuccessfulCommandsOnly := by
  refine ⟨fun s t h hr hc => ?_, fun i s t h hs => (effect_of_exec i s t h).results_eq_of_failed hs⟩
  have hk := step_keepsOutputs h hr hc
  exact ⟨hk.res, hk.resW, hk.p, hk.offsetMs, hk.delayMs⟩

/-- Settles O17: R17's columns, each read off `ExecEffect`. -/
theorem commandsWriteOnlyTheirResults : Obligations.CommandsWriteOnlyTheirResults := by
  intro i s t h
  have he := effect_of_exec i s t h
  have hu := he.untouched
  refine ⟨hu.opa, hu.opb, hu.opc, hu.opw, hu.opx, hu.len, hu.kiss, hu.illcmd, hu.accerr, hu.resetPin, hu.script,
    hu.rdata, hu.resets, he.clockPort_eq, he.res_eq, he.resW_eq, he.p_eq, he.offsetDelay_eq, he.byteAt_eq, ?_,
    he.byteAt_outside_pbuf⟩
  rintro rfl
  exact he.byteAt_outside_wire

/-- Settles O18: the operands of R17, command by command. -/
theorem commandsReadOnlyTheirOperands : Obligations.CommandsReadOnlyTheirOperands := by
  intro i s s' t t' h h' hclk hopa hopb hser hopw hcor hlen hkiss hwire hpbuf
  cases i with
  | tsNow =>
    obtain ⟨hst, hres⟩ := tsNow_reads h h' (hclk rfl)
    exact ⟨hst, fun hs => by simpa using hres hs⟩
  | tsEnc =>
    obtain ⟨hst, hb⟩ := tsEnc_reads h h' (hopa (by simp))
    exact ⟨hst, fun _ => by simpa using hb⟩
  | tsDec =>
    obtain ⟨hst, hres⟩ := tsDec_reads h h' (hwire rfl)
    exact ⟨hst, fun _ => by simpa using hres⟩
  | frac2ms =>
    obtain ⟨hst, hres⟩ := frac2ms_reads h h' (hopw (by simp))
    exact ⟨hst, fun _ => by simpa using hres⟩
  | ms2frac =>
    obtain ⟨hst, hres⟩ := ms2frac_reads h h' (hopw (by simp))
    exact ⟨hst, fun hs => by simpa using hres hs⟩
  | serReq =>
    obtain ⟨hst, hres⟩ := serReq_reads h h' (hopa (by simp)) (hcor rfl) (hlen (by simp))
    exact ⟨hst, fun hs => by simpa using hres hs⟩
  | desReq =>
    have hp : s.parseFrame = s'.parseFrame := parseFrame_congr s' s (hpbuf (by simp))
    obtain ⟨hst, hres⟩ := desReq_reads h h' (hlen (by simp)) hp
    exact ⟨hst, fun hs => by simpa using hres hs⟩
  | desResp =>
    have hp : s.parseFrame = s'.parseFrame := parseFrame_congr s' s (hpbuf (by simp))
    obtain ⟨hst, hres⟩ := desResp_reads h h' (hopa (by simp)) (hopb (by simp)) (hlen (by simp)) (hkiss rfl) hp
    exact ⟨hst, fun hs => by simpa using hres hs⟩
  | serResp =>
    obtain ⟨hopc, hw, hx⟩ := hser rfl
    obtain ⟨hst, hres⟩ := serResp_reads h h' (hopa (by simp)) (hopb (by simp)) hopc hw hx (hlen (by simp))
    exact ⟨hst, fun hs => by simpa using hres hs⟩

/-- Settles O1: the reset state is written out; an unwritten byte is a free value. -/
theorem resetGivesListedValues : Obligations.ResetGivesListedValues :=
  ⟨rfl, rfl, rfl, rfl, rfl, rfl, rfl, rfl, rfl, rfl, rfl, rfl, rfl, rfl, rfl, by decide, fun _ => rfl⟩

/-- Settles O2: `driveReset false` on either level of the input. -/
theorem releasingResetGivesResetState : Obligations.ReleasingResetGivesResetState := by
  intro s es hs
  refine ⟨fun hr => ?_, fun hr => ?_⟩
  · rw [step_reset s false es hs, driveReset_false, State.setScript_resetPin, if_pos hr]
    rfl
  · rw [step_reset s false es hs, driveReset_false, State.setScript_resetPin, if_neg (by simp [hr])]
    rfl

/-- Settles O3: asserting RESET, and an access dropped. -/
theorem accessDuringResetHasNoEffect : Obligations.AccessDuringResetHasNoEffect :=
  ⟨fun s es hs => step_reset s true es hs, fun s a es hs hr => step_access_dropped s a es hs hr⟩

/-- Settles O9: `CMD` written and `CMD` read. -/
theorem stepRunsDecodedCommand : Obligations.StepRunsDecodedCommand := by
  refine ⟨fun s w i es hs hr hd _ => ?_, fun s es hs hr => ?_⟩
  · rw [step_access s _ es hs hr, runAccess_cmd, runCommand_ok w i _ hd]
    rfl
  · rw [step_access s _ es hs hr, runAccess_r32_cmd]
    rfl

/-- Settles O23: no byte written yet, `LASTOP` 0 with `Success`. -/
theorem resetMeetsMachineInvariant : Obligations.ResetMeetsMachineInvariant := ⟨wf_reset, rfl⟩

/-- Settles O26: the stated sample is what the port presents, and `TS_NOW` uses it up. -/
theorem clockLineFeedsNextTsNowOnly : Obligations.ClockLineFeedsNextTsNowOnly := by
  refine ⟨fun s c es hs => ⟨_, step_ht s c es hs, rfl, rfl⟩, fun s => ?_⟩
  obtain ⟨t, ht, he⟩ := exec_effect .tsNow s
  exact ⟨t, ht, he.clockSample_tsNow⟩

end Sys2Proof.Machine
end

section
/-! The family `20_memory.md`: registers read and written through the host port, ill-formed accesses, the frame bytes a
deserialise command reads, and the byte primitives of the commands. -/

namespace Sys2Proof.Machine

/-! ### A register access (R30, R33, R34) -/

theorem runAccess_r32 {off : Nat} {r : Reg} (s : State) (h : regAt off = some r) :
    runAccess (.r32 off) s = .next (s.reply (s.readReg r)) := by
  simp only [runAccess, readWord, h]

theorem runAccess_w32 {off : Nat} {r : Reg} (s : State) (v : Word) (h : regAt off = some r) (hr : r ≠ .cmd) :
    runAccess (.w32 off v) s = .next (s.writeReg r v) := by
  simp only [runAccess, writeWord, h]

/-- What is still to come is no register: reading does not see it. -/
theorem readReg_setScript (s : State) (es : List Event) (r : Reg) : (s.setScript es).readReg r = s.readReg r := by
  cases r <;> rfl

/-- What is still to come is no register: writing leaves it. -/
theorem writeReg_setScript (s : State) (es : List Event) (r : Reg) (v : Word) :
    (s.setScript es).writeReg r v = (s.writeReg r v).setScript es := by
  cases r <;> rfl

section RegisterStep

variable {s : State} {off : Nat} {r : Reg} {es : List Event}

/-- A 32-bit read of a listed register changes nothing of the block (R34). -/
theorem step_readReg (h : regAt off = some r) (hs : s.script = .access (.r32 off) :: es) (hr : s.resetPin = false) :
    step s = .next { s with script := es, rdata := s.readReg r } := by
  rw [step_access s _ es hs hr, runAccess_r32 _ h, readReg_setScript]
  rfl

/-- A 32-bit write of a listed register other than `CMD` is `writeReg` (R33). -/
theorem step_writeReg {v : Word} (h : regAt off = some r) (hc : r ≠ .cmd) (hs : s.script = .access (.w32 off v) :: es)
    (hr : s.resetPin = false) : step s = .next ((s.writeReg r v).setScript es) := by
  rw [step_access s _ es hs hr, runAccess_w32 _ v h hc, writeReg_setScript]

end RegisterStep

/-! ### Which register stands where, and what may be done with it (R33, R38) -/

theorem regAt_kissCode : ∀ i : Fin 4, regAt (0x0A0 + 8 * i.val) = some (.kissCode i) := by decide

theorem regAt_kissCtl : ∀ i : Fin 4, regAt (0x0A4 + 8 * i.val) = some (.kissCtl i) := by decide

/-- The rows of R38 that R33 makes read-only: the status group and the results. -/
def readOnlyRows : List (Nat × Reg) := [(0x004, .status), (0x008, .lastop), (0x00C, .flags)] ++ resultRows

/-- The rows of R38 that hold a 32-bit operand: those after `CMD` and the status group. -/
def storedRows : List (Nat × Reg) := operandRows.drop 4

theorem regAt_readOnlyRow : ∀ row ∈ readOnlyRows, regAt row.1 = some row.2 ∧ row.2 ≠ .cmd := by decide

theorem regAt_storedRow : ∀ row ∈ storedRows, regAt row.1 = some row.2 ∧ row.2 ≠ .cmd := by decide

/-- A read-only register ignores a write and sets no flag (R33). -/
theorem writeReg_readOnlyRow (s : State) (v : Word) : ∀ row ∈ readOnlyRows, s.writeReg row.2 v = s := by
  simp [readOnlyRows, resultRows, State.writeReg]

/-- Replacing the entry `i` of the kiss table leaves the others. -/
theorem getElem_set_kiss (k : Vector KissEntry Config.kissN) (i j : Fin Config.kissN) (e : KissEntry) :
    (k.set i e)[j] = if i = j then e else k[j] := by
  simp only [Fin.getElem_fin, Vector.getElem_set, Fin.ext_iff]

/-- A write of `KISS_CODE[i]` keeps the fields of `KISS_CTL[i]` and every other entry (R21, R33). -/
theorem kiss_writeReg_kissCode (s : State) (i j : Fin Config.kissN) (v : Word) :
    (s.writeReg (.kissCode i) v).kiss[j] = if i = j then { s.kiss[i] with code := v } else s.kiss[j] :=
  getElem_set_kiss s.kiss i j _

/-- A write of `KISS_CTL[i]` keeps every other entry (R22, R33). -/
theorem kiss_writeReg_kissCtl (s : State) (i j : Fin Config.kissN) (v : Word) :
    (s.writeReg (.kissCtl i) v).kiss[j] = if i = j then s.kiss[i].setCtl v else s.kiss[j] :=
  getElem_set_kiss s.kiss i j _

/-- `KISS_CTL[i]` as read, as a sum of its two fields (R22). -/
theorem kissCtlWord_eq_add (e : KissEntry) :
    kissCtlWord e = (if e.valid then 0x80000000 else 0) + e.cls.setWidth 32 := by
  have h : ∀ (valid : Bool) (cls : BitVec 2),
      BitVec.ofBool valid ++ (0 : BitVec 29) ++ cls = (if valid then 0x80000000 else 0) + cls.setWidth 32 := by decide
  exact h e.valid e.cls

/-! ### An ill-formed access (R31, R32) -/

theorem runAccess_r32_unlisted {off : Nat} (s : State) (h : regAt off = none) :
    runAccess (.r32 off) s = .next (s.flagAccErr.reply 0) := by
  simp only [runAccess, readWord, h]

theorem runAccess_w32_unlisted {off : Nat} (s : State) (v : Word) (h : regAt off = none) :
    runAccess (.w32 off v) s = .next s.flagAccErr := by
  simp only [runAccess, writeWord, h]

theorem runAccess_r8_unmapped {off : Nat} (s : State) (h : byteMapped off ≠ true) :
    runAccess (.r8 off) s = .next (s.flagAccErr.reply 0) := by
  rw [runAccess, readByte, if_neg h]

theorem runAccess_w8_unmapped {off : Nat} (s : State) (b : Byte) (h : byteMapped off ≠ true) :
    runAccess (.w8 off b) s = .next s.flagAccErr := by
  rw [runAccess, writeByte, if_neg h]

/-! ### A deserialise command and a wrong length (R39, R78) -/

/-- A deserialise command on a wrong length fails with one fixed status, whatever the state holds besides. -/
theorem exec_deserialise_wrong {i : Instr} (hi : i = .desReq ∨ i = .desResp) :
    ∃ st ≠ Status.success, ∀ s : State, s.lenExact = false → exec i s = .next (s.finish i st) := by
  rcases hi with rfl | rfl
  · exact ⟨.badParameter, by decide, exec_desReq_wrong⟩
  · exact ⟨.invalidResponse, by decide, exec_desResp_wrong⟩

/-! ### The byte primitives (R36) -/

/-- Bytes written in two runs, one after the other, are the bytes written in one. -/
theorem putAll_append (bs cs : List Byte) (m : Memory) (a : Nat) :
    Memory.putAll m a (bs ++ cs) = Memory.putAll (Memory.putAll m a bs) (a + bs.length) cs := by
  induction bs generalizing m a with
  | nil => rfl
  | cons b bs ih =>
    rw [List.cons_append, Memory.putAll, Memory.putAll, ih, List.length_cons, Nat.add_assoc, Nat.add_comm 1]

/-- `TsWrite` is two `MemWrite`s: the seconds, then the fraction (R36, R53). -/
theorem tsWrite_eq_memWrite4 (s : State) (off : Nat) (t : Timestamp) :
    s.tsWrite off t = (s.memWrite4 off t.sec).memWrite4 (off + 4) t.frac :=
  congrArg s.setMem (putAll_append (wireBytes t.sec) (wireBytes t.frac) s.mem (pbufBase + off))

/-- `MemWrite(off, 4, v)` byte by byte, most significant first (R36). -/
theorem byteAt_memWrite4_bigEndian (s : State) (off a : Nat) (v : Word) :
    (s.memWrite4 off v).byteAt a =
      if a = 0x100 + off then v.extractLsb' 24 8 else if a = 0x100 + off + 1 then v.extractLsb' 16 8
      else if a = 0x100 + off + 2 then v.extractLsb' 8 8 else if a = 0x100 + off + 3 then v.extractLsb' 0 8
      else s.byteAt a := by
  rw [byteAt_memWrite4]
  by_cases h : 0x100 + off ≤ a ∧ a < 0x100 + off + 4
  · obtain ⟨n, rfl⟩ := Nat.exists_eq_add_of_le h.1
    have hn : n < 4 := by omega
    interval_cases n <;> simp [wireBytes]
  · rw [if_neg h, if_neg (by omega), if_neg (by omega), if_neg (by omega), if_neg (by omega)]

/-! ### The statements -/

/-- Settles O10: the row an offset stands in, in the three parts of R38. -/
theorem registerReadReturnsListedRegister : Obligations.RegisterReadReturnsListedRegister := by
  rintro s off v es (hrow | ⟨i, rfl, rfl⟩ | ⟨i, rfl, rfl⟩) hs hr
  · rw [← flagsWord_eq s.illcmd s.accerr] at hrow
    obtain ⟨row, hmem, heq⟩ := List.mem_map.1
      (show (off, v) ∈ (operandRows ++ resultRows).map (fun row => (row.1, s.readReg row.2)) from hrow)
    cases heq
    exact step_readReg (regAt_row row (List.mem_append_left kissRows hmem)) hs hr
  · exact step_readReg (regAt_kissCode i) hs hr
  · rw [← kissCtlWord_eq_add]
    exact step_readReg (regAt_kissCtl i) hs hr

/-- Settles O11: each of R33's four kinds of register is its rows of R38 and what `writeReg` does there. -/
theorem registerWriteRights : Obligations.RegisterWriteRights := by
  refine ⟨fun s off v es hoff hs hr => ?_, fun s es hs hr => step_readReg ((regAt_cmd_iff _).2 rfl) hs hr,
    fun s v es i hs hr => ⟨_, step_writeReg (regAt_kissCtl i) nofun hs hr, rfl, ?_⟩,
    fun s v es i hs hr => ⟨_, step_writeReg (regAt_kissCode i) nofun hs hr, rfl, ?_⟩,
    fun s off v es t hrow hs hr => ?_⟩
  · obtain ⟨row, hmem, rfl⟩ := List.mem_map.1 (show off ∈ readOnlyRows.map Prod.fst from hoff)
    obtain ⟨hat, hc⟩ := regAt_readOnlyRow row hmem
    rw [step_writeReg hat hc hs hr, writeReg_readOnlyRow s v row hmem]
    rfl
  · refine ⟨?_, ?_, fun j hj => ?_⟩
    · rw [State.setScript_kiss, kiss_writeReg_kissCtl, if_pos rfl, kissCtlWord_setCtl]
    · rw [State.setScript_kiss, kiss_writeReg_kissCtl, if_pos rfl, KissEntry.setCtl]
    · rw [State.setScript_kiss, kiss_writeReg_kissCtl, if_neg hj.symm]
  · refine ⟨?_, ?_, fun j hj => ?_⟩
    · rw [State.setScript_kiss, kiss_writeReg_kissCode, if_pos rfl]
    · rw [State.setScript_kiss, kiss_writeReg_kissCode, if_pos rfl]
      rfl
    · rw [State.setScript_kiss, kiss_writeReg_kissCode, if_neg hj.symm]
  · obtain ⟨row, hmem, heq⟩ := List.mem_map.1
      (show (off, t) ∈ storedRows.map (fun row => (row.1, s.writeReg row.2 v)) from hrow)
    cases heq
    obtain ⟨hat, hc⟩ := regAt_storedRow row hmem
    exact step_writeReg hat hc hs hr

/-- Settles O13: each ill-formed access is `flagAccErr`, and a read of the kind replies 0. -/
theorem illFormedAccessSetsAccerrOnly : Obligations.IllFormedAccessSetsAccerrOnly := by
  intro s off v b k es registers inWindow hr
  have hreg (h : off ∉ registers) : regAt off = none := (regAt_none_iff off).2 h
  have hwin (h : ¬ inWindow) : byteMapped off ≠ true := mt (byteMapped_iff off).1 h
  refine ⟨fun h hs => ?_, fun h hs => ?_, fun h hs => ?_, fun h hs => ?_, fun hs => ?_, fun hs => ?_⟩ <;>
    rw [step_access s _ es hs hr]
  · rw [runAccess_r32_unlisted _ (hreg h)]; rfl
  · rw [runAccess_w32_unlisted _ v (hreg h)]; rfl
  · rw [runAccess_r8_unmapped _ (hwin h)]; rfl
  · rw [runAccess_w8_unmapped _ b (hwin h)]; rfl
  · rfl
  · rfl

/-- Settles O19: the length check stands before the first read of the frame. -/
theorem wrongLengthReadsNoFrameByte : Obligations.WrongLengthReadsNoFrameByte := by
  intro i s m hi hl
  obtain ⟨st, hst, hx⟩ := exec_deserialise_wrong hi
  have hlen : s.lenExact = false := Bool.eq_false_iff.2 (mt (lenExact_iff s).1 hl)
  exact ⟨s.finish i st, hx s hlen, hst, hx (s.setMem m) hlen⟩

/-- Settles O39: reads are the bytes put together, writes the bytes of the word in wire order. -/
theorem framePrimitivesAreBigEndian : Obligations.FramePrimitivesAreBigEndian :=
  fun s off => ⟨rfl, ofWire_toNat _ _ _ _, rfl, fun b a => byteAt_memWrite1 s off a b,
    fun v a => byteAt_memWrite4_bigEndian s off a v, fun t a => by rw [tsWrite_eq_memWrite4],
    fun v => wordAt_putBytes s (pbufBase + off) v⟩

end Sys2Proof.Machine
end

section
/-! The family `30_encoding.md`: the decoder and the encoder of the command word as one equivalence, what an illegal word
does, and the statuses a command ends with. -/

namespace Sys2Proof.Machine

/-! ### The opcode map, every row and every gap (R48, R49) -/

/-- The map from number to command is the map from command to number, read backwards. -/
theorem instrOfOpcode_eq_some_iff (n : Nat) (i : Instr) : instrOfOpcode n = some i ↔ n = i.opcode.toNat := by
  constructor
  · intro h
    unfold instrOfOpcode at h
    split at h <;> cases h <;> rfl
  · rintro rfl
    exact instrOfOpcode_opcode i

/-- The unused opcodes of R49: 0x00, 0x06 to 0x0F, from 0x14 on. -/
theorem instrOfOpcode_eq_none_iff (n : Nat) :
    instrOfOpcode n = none ↔ n = 0x00 ∨ (0x06 ≤ n ∧ n ≤ 0x0F) ∨ 0x14 ≤ n := by
  unfold instrOfOpcode
  split
  case h_10 => simp only [imp_false, true_iff] at *; omega
  all_goals simp

/-- The same for the byte the opcode is read from. -/
theorem instrOfOpcode_toNat_eq_none_iff (op : Byte) :
    instrOfOpcode op.toNat = none ↔ op = 0x00 ∨ (0x06 ≤ op ∧ op ≤ 0x0F) ∨ 0x14 ≤ op :=
  (instrOfOpcode_eq_none_iff op.toNat).trans (or_congr_left (BitVec.toNat_inj (y := 0)))

/-! ### The two fields of a word, and what it decodes to (R45, R46) -/

theorem zeroField_eq_zero_iff (w : Word) : zeroField w = 0 ↔ w.toNat < 256 := by
  have hw : w.toNat < 4294967296 := w.isLt
  have hz : (zeroField w).toNat = w.toNat / 256 := by
    rw [zeroField, BitVec.extractLsb'_toNat, Nat.shiftRight_eq_div_pow]
    omega
  rw [← BitVec.toNat_inj, hz]
  show w.toNat / 256 = 0 ↔ _
  omega

theorem opcodeField_toNat (w : Word) : (opcodeField w).toNat = w.toNat % 256 := by
  rw [opcodeField, BitVec.extractLsb'_toNat, Nat.shiftRight_zero]

theorem encode_toNat (i : Instr) : (encode i).toNat = i.opcode.toNat :=
  BitVec.toNat_setWidth_of_le (by decide)

/-- The two fields cover the word: none of its bits is outside both. -/
theorem eq_encode_iff (w : Word) (i : Instr) :
    w = encode i ↔ zeroField w = 0 ∧ (opcodeField w).toNat = i.opcode.toNat := by
  have hop : i.opcode.toNat < 256 := i.opcode.isLt
  rw [← BitVec.toNat_inj, encode_toNat, zeroField_eq_zero_iff, opcodeField_toNat]
  omega

theorem decode_eq_ok_iff_fields (w : Word) (i : Instr) :
    decode w = .ok i ↔ zeroField w = 0 ∧ instrOfOpcode (opcodeField w).toNat = some i := by
  unfold decode
  split
  next hz => cases instrOfOpcode (opcodeField w).toNat <;> simp [hz]
  next hz => exact iff_of_false nofun fun h => hz h.1

/-- Decoding inverts encoding and accepts nothing else: each command has one word. -/
theorem decode_eq_ok_iff (w : Word) (i : Instr) : decode w = .ok i ↔ w = encode i := by
  rw [decode_eq_ok_iff_fields, instrOfOpcode_eq_some_iff, eq_encode_iff]

theorem decode_encode (i : Instr) : decode (encode i) = .ok i := (decode_eq_ok_iff _ _).2 rfl

/-- The table's numbering reads a 32-bit word as `decode` does. -/
theorem decodeTableWord_toNat (w : Word) : decodeTableWord 32 w.toNat = (decode w).toOption := by
  have hw : w.toNat % 2 ^ 32 = w.toNat := Nat.mod_eq_of_lt w.isLt
  simp only [decodeTableWord, hw, if_pos w.isLt, BitVec.ofNat_toNat, BitVec.setWidth_eq]

theorem decode_ne_ok_iff (w : Word) :
    (∀ i, decode w ≠ .ok i) ↔ zeroField w ≠ 0 ∨ instrOfOpcode (opcodeField w).toNat = none := by
  simp only [ne_eq, decode_eq_ok_iff_fields, not_and_or, forall_or_left, Option.eq_none_iff_forall_ne_some]

/-! ### The rows of the opcode map (R48) -/

/-- R48's rows: the match value and the command. -/
def opcodeRows : List (Word × Instr) :=
  [(0x00000001, .tsNow), (0x00000002, .tsEnc), (0x00000003, .tsDec), (0x00000004, .frac2ms), (0x00000005, .ms2frac),
   (0x00000010, .serReq), (0x00000011, .desReq), (0x00000012, .desResp), (0x00000013, .serResp)]

theorem opcodeRows_match_eq_encode : ∀ row ∈ opcodeRows, row.1 = encode row.2 := by decide

/-! ### The statuses of R112 as a list -/

/-- The statuses R112 lists for each command. -/
def listedStatuses (i : Instr) : List Status :=
  match i with
  | .tsNow   => [.success, .timeNotSupported]
  | .tsEnc   => [.success]
  | .tsDec   => [.success]
  | .frac2ms => [.success]
  | .ms2frac => [.success, .badParameter]
  | .serReq  => [.success, .badParameter]
  | .desReq  => [.success, .badParameter]
  | .desResp =>
    [.success, .invalidResponse, .rejectedResponse, .rejectedResponseChangeServer, .rejectedResponseRetryWithBackoff,
      .rejectedResponseOtherCode]
  | .serResp => [.success, .badParameter]

theorem mem_listedStatuses_iff (i : Instr) (st : Status) : st ∈ listedStatuses i ↔ mayEndWith i st = true := by
  cases i <;> simp [listedStatuses, mayEndWith, or_assoc]

/-! ### The statements -/

/-- Settles O7: `decode_eq_ok_iff`, read both ways. -/
theorem decodeAndEncodeAgree : Obligations.DecodeAndEncodeAgree := by
  refine fun i w => ⟨fun _ => ⟨decode_encode i, ?_⟩, decode_eq_ok_iff w i⟩
  rw [decodeTableWord_toNat, decode_encode]
  rfl

/-- Settles O6: the mask keeps every bit, and each row's match value is its command's word. -/
theorem opcodeRowsSelectByMaskAndMatch : Obligations.OpcodeRowsSelectByMaskAndMatch := by
  intro row hrow w
  have hmask : w &&& 0xFFFFFFFF = w := BitVec.and_allOnes
  rw [hmask, opcodeRows_match_eq_encode row hrow, decode_eq_ok_iff]

/-- Settles O8: the listed words are the ones with a nonzero upper field or an opcode in a gap of the map, and `CMD` flags
a word that decodes to no command. -/
theorem illegalWordSetsIllcmdOnly : Obligations.IllegalWordSetsIllcmdOnly := by
  intro w illegal
  have hiff : illegal ↔ ∀ i, decode w ≠ .ok i :=
    ((decode_ne_ok_iff w).trans (or_congr_right (instrOfOpcode_toNat_eq_none_iff (opcodeField w)))).symm
  refine ⟨hiff, fun hi s es hs hr => ?_⟩
  rw [step_access s _ es hs hr, runAccess_cmd, runCommand_illegal w _ (hiff.1 hi)]
  rfl

/-- Settles O21: `ExecEffect` ends with a status of the list, and the list's codes are the numbers written out. -/
theorem commandsEndWithListedStatuses : Obligations.CommandsEndWithListedStatuses := by
  intro i s t h
  have hst := (mem_listedStatuses_iff i t.status).2 (effect_of_exec i s t h).mayEndWith_status
  have hcode := List.mem_map_of_mem (f := fun st => st.code.toNat) hst
  cases i <;> exact hcode

/-- Settles O5: each word is its command's encoding. -/
theorem listedWordsDecode : Obligations.ListedWordsDecode :=
  ⟨decode_encode .tsNow, decode_encode .tsEnc, decode_encode .tsDec, decode_encode .frac2ms, decode_encode .ms2frac,
    decode_encode .serReq, decode_encode .desReq, decode_encode .desResp, decode_encode .serResp⟩

end Sys2Proof.Machine
end

section
/-! The family `40_timestamp.md`: seconds differences, truncating quotients and the two scale functions, the wire order of
`WIRE`, and the statements about the five commands of the timestamp family. -/

namespace Sys2Proof.Machine

/-! ### Seconds differences (R65) -/

/-- The signed minimal residue is the library's balanced remainder. -/
theorem sres32_eq_bmod (x : Int) : sres32 x = x.bmod (2 ^ 32) := rfl

/-- A seconds difference is the two's complement value of the modulo 2^32 difference. -/
theorem secDiff_eq_toInt_sub (a b : Word) : secDiff a b = (a - b).toInt := by
  rw [secDiff, sres32_eq_bmod, BitVec.toInt_sub, BitVec.toInt_eq_toNat_bmod, BitVec.toInt_eq_toNat_bmod,
    Int.sub_bmod_bmod, Int.bmod_sub_bmod]

/-- The seconds fields of two instants less than 2^31 seconds apart give their true difference, whatever the eras. -/
theorem secDiff_ofInt (x y : Int) (hlo : -2147483648 < x - y) (hhi : x - y < 2147483648) :
    secDiff (BitVec.ofInt 32 x) (BitVec.ofInt 32 y) = x - y := by
  rw [secDiff_eq_toInt_sub, BitVec.toInt_sub, BitVec.toInt_ofInt, BitVec.toInt_ofInt, Int.sub_bmod_bmod,
    Int.bmod_sub_bmod, ← sres32_eq_bmod]
  exact sres32_of_range _ hlo.le hhi

/-! ### Truncating quotients (R66) -/

theorem tquot_of_nonneg {a : Int} (b : Int) (h : 0 ≤ a) : tquot a b = a / b := if_pos h

theorem tquot_of_neg {a : Int} (b : Int) (h : a < 0) : tquot a b = -((-a) / b) := if_neg (not_le.2 h)

/-- `frac_to_ms` is `tquot` on non-negative operands (R66, R67). -/
theorem fracToMs_eq_tquot (k : Nat) (f : Word) : ((fracToMs k f).toNat : Int) = tquot f.toNat k := by
  rw [fracToMs_toNat, tquot_of_nonneg _ (Int.natCast_nonneg _), Int.natCast_ediv]

/-! ### The two scale functions together (R67, R68, R76) -/

section Scale

variable {k : Nat}

/-- From the lower bound of R68 on, no fraction stands for more than 999 ms. -/
theorem fracToMs_le (f : Word) (hlo : 4294968 ≤ k) : (fracToMs k f).toNat ≤ 999 := by
  have hf : f.toNat < 1000 * k := by omega
  rw [fracToMs_toNat]
  exact Nat.le_of_lt_succ (Nat.div_lt_of_lt_mul (Nat.mul_comm 1000 k ▸ hf))

/-- A count below 1000 comes back from its fraction (R68 item 3). -/
theorem fracToMs_msToFrac (m : Word) (hpos : 0 < k) (hhi : k ≤ 4299266) (hm : m.toNat < 1000) :
    fracToMs k (msToFrac k m) = m := by
  apply BitVec.eq_of_toNat_eq
  rw [fracToMs_toNat, msToFrac_toNat k m hhi hm, Nat.mul_div_cancel _ hpos]

/-- A fraction comes back as the largest multiple of the scale constant not above it (R76). -/
theorem msToFrac_fracToMs_roundsDown (f : Word) (hlo : 4294968 ≤ k) (hhi : k ≤ 4299266) :
    (msToFrac k (fracToMs k f)).toNat ≤ f.toNat ∧ f.toNat - (msToFrac k (fracToMs k f)).toNat < k
      ∧ k ∣ (msToFrac k (fracToMs k f)).toNat := by
  rw [msToFrac_toNat k _ hhi (Nat.lt_succ_of_le (fracToMs_le f hlo)), fracToMs_toNat]
  refine ⟨Nat.div_mul_le_self _ _, ?_, Nat.dvd_mul_left _ _⟩
  rw [← Nat.mod_eq_sub_div_mul]
  exact Nat.mod_lt _ (by omega)

end Scale

theorem millisOk_eq_false_iff (m : Word) : millisOk m = false ↔ 1000 ≤ m.toNat := by
  rw [← Bool.not_eq_true, millisOk_iff, not_lt]

/-! ### A Timestamp in wire order (R53, R70, R71) -/

/-- The `i`-th byte of a Timestamp written is the `i`-th of its wire order. -/
theorem byteAt_putTs_inside (s : State) (b i : Nat) (ts : Timestamp) (h : i < 8) :
    (s.putTs b ts).byteAt (b + i) = (wireBytes ts.sec ++ wireBytes ts.frac)[i] :=
  byteAt_putBytes_inside s b i (wireBytes ts.sec ++ wireBytes ts.frac) h

/-- Writing a Timestamp leaves every byte outside its eight. -/
theorem byteAt_putTs_outside (s : State) (b a : Nat) (ts : Timestamp) (h : a < b ∨ b + 8 ≤ a) :
    (s.putTs b ts).byteAt a = s.byteAt a :=
  byteAt_putBytes_outside s b a _ h

/-- Writing a Timestamp where it was read leaves every byte as it was. -/
theorem byteAt_putTs_tsAt (s : State) (b a : Nat) : (s.putTs b (s.tsAt b)).byteAt a = s.byteAt a := by
  have hbytes : wireBytes (s.tsAt b).sec ++ wireBytes (s.tsAt b).frac
      = (List.range 8).map (fun i => s.byteAt (b + i)) := by
    simp only [State.tsAt, State.wordAt, wireBytes_ofWire]
    rfl
  rw [byteAt_putTs, hbytes]
  split
  next h =>
    obtain ⟨n, rfl⟩ := Nat.exists_eq_add_of_le h.1
    have hn : n < 8 := by omega
    simp [hn]
  next => rfl

/-! ### The statements -/

/-- Settles O25: a good sample and a bad one, the result words as variables so that the frame is `rfl`. -/
theorem tsNowConvertsClockSample : Obligations.TsNowConvertsClockSample := by
  refine ⟨decode_encode .tsNow, fun s => ⟨fun hok hms => ?_, fun hbad => ?_⟩⟩
  · obtain ⟨sec, frac, hsec, hfrac, hx⟩ := exec_tsNow_result s hok hms
    exact ⟨_, hx, hsec, hfrac, rfl⟩
  · exact ⟨_, exec_tsNow_fail s (hbad.imp_right (millisOk_eq_false_iff _).2), rfl⟩

/-- Settles O27: each byte of `WIRE` is the one stored there, and no other is. -/
theorem tsEncWritesWireOrder : Obligations.TsEncWritesWireOrder := by
  refine ⟨decode_encode .tsEnc, fun s => ?_⟩
  have hin (i : Nat) (hi : i < 8) := byteAt_putTs_inside s 0x0C0 i s.opa hi
  have hout (a : Nat) (ha : a < 0x0C0 ∨ 0x0C7 < a) := byteAt_putTs_outside s 0x0C0 a s.opa ha
  exact ⟨_, exec_tsEnc s, hin 0 (by decide), hin 1 (by decide), hin 2 (by decide), hin 3 (by decide), hin 4 (by decide),
    hin 5 (by decide), hin 6 (by decide), hin 7 (by decide), hout, rfl⟩

/-- Settles O28: both words are read most significant byte first. -/
theorem tsDecReadsWireOrder : Obligations.TsDecReadsWireOrder :=
  ⟨decode_encode .tsDec, fun s => ⟨_, exec_tsDec s, ofWire_toNat _ _ _ _, ofWire_toNat _ _ _ _, rfl⟩⟩

/-- Settles O29: a Timestamp written reads back, and one read is written back byte by byte. -/
theorem wireRoundTrip : Obligations.WireRoundTrip :=
  ⟨fun s => ⟨_, _, exec_tsEnc s, exec_tsDec _, tsAt_putTs s 0x0C0 s.opa⟩,
    fun s => ⟨_, _, exec_tsDec s, exec_tsEnc _, fun a => byteAt_putTs_tsAt _ 0x0C0 a⟩⟩

/-- Settles O30: the quotient and its bound, with `K` = 4295000. -/
theorem fracToMsDivides : Obligations.FracToMsDivides :=
  ⟨decode_encode .frac2ms, fun s =>
    ⟨_, exec_frac2ms s, fracToMs_toNat 4295000 s.opw, fracToMs_le s.opw (by decide), rfl⟩⟩

/-- Settles O31: the count is checked before the product is formed. -/
theorem msToFracMultipliesOrRefuses : Obligations.MsToFracMultipliesOrRefuses := by
  refine ⟨decode_encode .ms2frac, fun s => ⟨fun hm => ?_, fun hm => ?_⟩⟩
  · obtain ⟨v, hv, hx⟩ := exec_ms2frac_result s hm
    exact ⟨_, hx, hv, rfl⟩
  · exact exec_ms2frac_refused s ((millisOk_eq_false_iff _).2 hm)

/-- Settles O32: `fracToMs_msToFrac` through the two commands. -/
theorem millisRoundTrip : Obligations.MillisRoundTrip := fun s hm =>
  ⟨_, _, exec_ms2frac_ok s ((millisOk_iff _).2 hm), rfl, exec_frac2ms _, rfl,
    fracToMs_msToFrac s.opw (by decide) (by decide) hm⟩

/-- Settles O33: the bounds are linear in `K`, and each demand is a lemma about the scale functions. -/
theorem scaleConstantRange : Obligations.ScaleConstantRange := by
  refine ⟨fun k => ⟨fun ⟨h999, h1000⟩ => ⟨by omega, by omega⟩, fun ⟨hlo, hhi⟩ => ⟨by omega, by omega⟩⟩,
    fun k hlo hhi => ⟨fun m hm => ?_, fun f => fracToMs_le f hlo⟩⟩
  have hlt : m.toNat < 1000 := Nat.lt_succ_of_le hm
  exact ⟨msToFrac_toNat k m hhi hlt, fracToMs_msToFrac m (by omega) hhi hlt⟩

/-- Settles O34: `FRAC2MS` leaves a count `MS2FRAC` accepts, and their composition rounds down. -/
theorem fractionRoundTripRoundsDown : Obligations.FractionRoundTripRoundsDown := by
  intro s
  have hlt : (fracToMs 4295000 s.opw).toNat < 1000 := Nat.lt_succ_of_le (fracToMs_le s.opw (by decide))
  exact ⟨_, _, exec_frac2ms s, exec_ms2frac_ok _ ((millisOk_iff _).2 hlt), rfl, rfl,
    msToFrac_fracToMs_roundsDown s.opw (by decide) (by decide)⟩

/-- Settles O35: the range and the congruence of `sres32`, and the two's complement reading of the rest. -/
theorem secondsDifferenceIsSignedMinimalResidue : Obligations.SecondsDifferenceIsSignedMinimalResidue := by
  refine ⟨fun a b => ?_, fun x y hhi hlo => secDiff_ofInt x y hlo hhi, fun a b h => ?_, by decide⟩
  · obtain ⟨hlo, hhi⟩ := sres32_range ((a.toNat : Int) - b.toNat)
    exact ⟨hlo, hhi, sres32_dvd _⟩
  · rw [secDiff_eq_toInt_sub, h]
    decide

/-- Settles O36: the two branches of `tquot`, its oddness, and `frac_to_ms` as a `tquot`. -/
theorem quotientTruncatesTowardZero : Obligations.QuotientTruncatesTowardZero :=
  ⟨fun a b _ => ⟨tquot_of_nonneg b, tquot_of_neg b, tquot_neg a b⟩, by decide, fracToMs_eq_tquot hw.fracPerMs, by decide⟩

end Sys2Proof.Machine
end

section
/-! The family `41_packet.md`: the ranges and the sign of the offset and the delay, the kiss table as a search, a built
frame byte by byte, and the statements about the four packet commands. -/

namespace Sys2Proof.Machine

/-! ### Ranges and signs (R66, R88 to R90) -/

/-- A dividend below `n + 1` divisors in size has a truncated quotient of at most `n` in size (R66). -/
theorem tquot_range {x b n : Int} (hb : 0 < b) (hlo : -(b * (n + 1)) < x) (hhi : x < b * (n + 1)) :
    -n ≤ tquot x b ∧ tquot x b ≤ n := by
  obtain ⟨hnonneg, hneg⟩ := tquot_bounds x b hb
  rcases le_or_gt 0 x with hx | hx
  · obtain ⟨hle, -, hq⟩ := hnonneg hx
    have : tquot x b < n + 1 := lt_of_mul_lt_mul_left (hle.trans_lt hhi) hb.le
    omega
  · obtain ⟨hle, -, hq⟩ := hneg hx
    have : -(n + 1) < tquot x b := lt_of_mul_lt_mul_left (by linarith) hb.le
    omega

/-- Half of a number, truncated, is positive from 2 on (R97). -/
theorem tquot_two_pos_iff (x : Int) : 0 < tquot x 2 ↔ 2 ≤ x := by
  have := tquot_bounds x 2 (by decide)
  omega

/-- Half of a number, truncated, is negative from −2 down (R97). -/
theorem tquot_two_neg_iff (x : Int) : tquot x 2 < 0 ↔ x ≤ -2 := by
  have := tquot_bounds x 2 (by decide)
  omega

/-- A seconds difference is a signed minimal residue (R65). -/
theorem secDiff_range (a b : Word) : -2147483648 ≤ secDiff a b ∧ secDiff a b ≤ 2147483647 := sres32_range _

section Ranges

variable (t1 t2 t3 t4 : Timestamp)

/-- The range of `twice` (R90). -/
theorem offsetTwice_range :
    -4294967297999 ≤ offsetTwice 4295000 t1 t2 t3 t4 ∧ offsetTwice 4295000 t1 t2 t3 t4 ≤ 4294967297999 := by
  have hs1 := secDiff_range t2.sec t1.sec
  have hs2 := secDiff_range t3.sec t4.sec
  have hf1 := fracDiff_range t2.frac t1.frac
  have hf2 := fracDiff_range t3.frac t4.frac
  have hq : -1999 ≤ tquot (fracDiff t2.frac t1.frac + fracDiff t3.frac t4.frac) (4295000 : Nat)
      ∧ tquot (fracDiff t2.frac t1.frac + fracDiff t3.frac t4.frac) (4295000 : Nat) ≤ 1999 :=
    tquot_range (by decide) (by omega) (by omega)
  simp only [offsetTwice]
  omega

/-- The range of the offset (R90). -/
theorem clockOffset_range :
    -2147483648999 ≤ clockOffset 4295000 t1 t2 t3 t4 ∧ clockOffset 4295000 t1 t2 t3 t4 ≤ 2147483648999 := by
  have h := offsetTwice_range t1 t2 t3 t4
  exact tquot_range (by decide) (by omega) (by omega)

/-- The range of the delay (R90). -/
theorem roundTripDelay_range :
    -4294967296999 ≤ roundTripDelay 4295000 t1 t2 t3 t4 ∧ roundTripDelay 4295000 t1 t2 t3 t4 ≤ 4294967296999 := by
  have hs1 := secDiff_range t4.sec t1.sec
  have hs2 := secDiff_range t3.sec t2.sec
  have hf1 := fracDiff_range t4.frac t1.frac
  have hf2 := fracDiff_range t3.frac t2.frac
  have hq : -1999 ≤ tquot (fracDiff t4.frac t1.frac - fracDiff t3.frac t2.frac) (4295000 : Nat)
      ∧ tquot (fracDiff t4.frac t1.frac - fracDiff t3.frac t2.frac) (4295000 : Nat) ≤ 1999 :=
    tquot_range (by decide) (by omega) (by omega)
  simp only [roundTripDelay]
  omega

/-- `OFFSET_MS` holds the offset untruncated (R90). -/
theorem toInt_i64_clockOffset : (i64 (clockOffset 4295000 t1 t2 t3 t4)).toInt = clockOffset 4295000 t1 t2 t3 t4 := by
  have h := clockOffset_range t1 t2 t3 t4
  exact toInt_i64 _ (by omega) (by omega)

/-- `DELAY_MS` holds the delay untruncated (R90). -/
theorem toInt_i64_roundTripDelay :
    (i64 (roundTripDelay 4295000 t1 t2 t3 t4)).toInt = roundTripDelay 4295000 t1 t2 t3 t4 := by
  have h := roundTripDelay_range t1 t2 t3 t4
  exact toInt_i64 _ (by omega) (by omega)

end Ranges

/-! ### The kiss table as a search (R91) -/

/-- A valid entry that holds the code. -/
def KissEntry.holds (refid : Word) (e : KissEntry) : Bool := e.valid && e.code = refid

theorem KissEntry.holds_iff (refid : Word) (e : KissEntry) : e.holds refid = true ↔ e.valid = true ∧ e.code = refid := by
  rw [KissEntry.holds, Bool.and_eq_true, decide_eq_true_eq]

/-- `KissClass` searches the table for the first entry that holds the code. -/
theorem kissClass_eq_find? (table : List KissEntry) (refid : Word) :
    kissClass table refid
      = ((table.find? (KissEntry.holds refid)).map fun e => Status.ofKissClass e.cls).getD .rejectedResponseOtherCode := by
  induction table with
  | nil => rfl
  | cons e t ih =>
    by_cases he : e.holds refid = true
    · rw [kissClass, if_pos ((e.holds_iff refid).1 he), List.find?_cons_of_pos he]
      rfl
    · rw [kissClass, if_neg (mt (e.holds_iff refid).2 he), List.find?_cons_of_neg he, ih]

section KissTable

variable {k : Vector KissEntry Config.kissN} {refid : Word}

/-- The first valid entry that holds the code decides. -/
theorem kissClass_of_first (i : Fin Config.kissN) (hi : k[i].holds refid = true)
    (hfirst : ∀ j : Fin Config.kissN, j < i → ¬ k[j].holds refid = true) :
    kissClass k.toList refid = Status.ofKissClass k[i].cls := by
  have hfind : k.toList.find? (KissEntry.holds refid) = some k[i] := by
    refine List.find?_eq_some_iff_getElem.2 ⟨hi, i.val, by simp, by simp, fun j hj => ?_⟩
    simpa using hfirst ⟨j, hj.trans i.isLt⟩ hj
  rw [kissClass_eq_find?, hfind]
  rfl

/-- A code that no valid entry holds is not recognised. -/
theorem kissClass_of_none (hnone : ∀ i : Fin Config.kissN, ¬ k[i].holds refid = true) :
    kissClass k.toList refid = .rejectedResponseOtherCode := by
  have hfind : k.toList.find? (KissEntry.holds refid) = none := by
    refine List.find?_eq_none.2 fun e he => ?_
    obtain ⟨i, hi, rfl⟩ := List.getElem_of_mem he
    simpa using hnone ⟨i, by simpa using hi⟩
  rw [kissClass_eq_find?, hfind]
  rfl

end KissTable

/-! ### The length checks (R78) -/

theorem lenFits_eq_false {s : State} (h : s.len.toNat < 48) : s.lenFits = false :=
  Bool.eq_false_iff.2 (mt (lenFits_iff s).1 (Nat.not_le.2 h))

theorem lenExact_eq_false {s : State} (h : s.len.toNat ≠ 48) : s.lenExact = false :=
  Bool.eq_false_iff.2 (mt (lenExact_iff s).1 h)

/-! ### `DES_RESP` outcome by outcome (R85, R86) -/

/-- A response that fails the length, origin, version or mode check is refused, whatever its stratum. -/
theorem exec_desResp_refused (s : State)
    (h : ¬ (s.len.toNat = 48 ∧ s.tsAt 0x118 = s.opa ∧ (s.byteAt 0x100).extractLsb' 3 3 = (4 : BitVec 3)
      ∧ (s.byteAt 0x100).extractLsb' 0 3 = (4 : BitVec 3))) :
    exec .desResp s = .next (s.finish .desResp .invalidResponse) := by
  by_cases hl : s.len.toNat = 48
  · have hr : responseStatus s s.parseFrame = .invalidResponse := by
      rcases responseStatus_cases s s.parseFrame with ⟨-, hr⟩ | ⟨-, -, hr⟩ | ⟨ho, hv, -⟩ | ⟨ho, hv, -⟩
      · exact hr
      · exact hr
      · exact absurd ⟨hl, ho, (serverVersionMode_iff _).1 hv⟩ h
      · exact absurd ⟨hl, ho, (serverVersionMode_iff _).1 hv⟩ h
    rw [exec_desResp_rejected s ((lenExact_iff s).2 hl) (by rw [hr]; decide), hr]
  · exact exec_desResp_wrong s (lenExact_eq_false hl)

/-- An accepted response, its offset and delay as free variables with their values (R88, R89). -/
theorem exec_desResp_result (s : State) (hlen : s.len.toNat = 48) (horg : s.tsAt 0x118 = s.opa)
    (hver : (s.byteAt 0x100).extractLsb' 3 3 = (4 : BitVec 3)) (hmode : (s.byteAt 0x100).extractLsb' 0 3 = (4 : BitVec 3))
    (hstr : s.byteAt 0x101 ≠ 0) :
    ∃ off dly : BitVec 64, off.toInt = clockOffset 4295000 s.opa (s.tsAt 0x120) (s.tsAt 0x128) s.opb
      ∧ dly.toInt = roundTripDelay 4295000 s.opa (s.tsAt 0x120) (s.tsAt 0x128) s.opb
      ∧ exec .desResp s = .next (((s.setFrame s.parseFrame).setOffsetDelay off dly).finish .desResp .success) :=
  ⟨_, _, toInt_i64_clockOffset _ _ _ _, toInt_i64_roundTripDelay _ _ _ _, exec_desResp_ok s hlen horg hver hmode hstr⟩

/-- The kiss table plays no part in what an accepted response writes (R85). -/
theorem acceptResponse_setKiss (s : State) (k : Vector KissEntry Config.kissN) (f : Frame) :
    State.acceptResponse { s with kiss := k } f = { s.acceptResponse f with kiss := k } := rfl

/-! ### Timestamps and their bytes (R36, R94) -/

/-- The bytes a Timestamp is read from are its bytes in wire order. -/
theorem byteAt_of_tsAt_eq {s : State} {a : Nat} {ts : Timestamp} (h : s.tsAt a = ts) (n : Nat) (hn : n < 8) :
    s.byteAt (a + n) = (wireBytes ts.sec ++ wireBytes ts.frac)[n] := by
  subst h
  exact (byteAt_putTs_tsAt s a (a + n)).symm.trans (byteAt_putTs_inside s a n _ hn)

/-- Where the same Timestamp is read, the same eight bytes stand. -/
theorem byteAt_eq_of_tsAt_eq {s t : State} {a b : Nat} (h : t.tsAt a = s.tsAt b) (n : Nat) (hn : n < 8) :
    t.byteAt (a + n) = s.byteAt (b + n) :=
  (byteAt_of_tsAt_eq h n hn).trans (byteAt_of_tsAt_eq rfl n hn).symm

/-! ### A built response byte by byte (R93) -/

theorem byteAt_buildResponse_zero (s : State) (n : Nat) (hn : (2 ≤ n ∧ n ≤ 11) ∨ (16 ≤ n ∧ n ≤ 23)) :
    s.buildResponse.byteAt (0x100 + n) = 0 := by
  rw [byteAt_buildResponse, if_neg (by omega), if_neg (by omega), if_neg (by omega), if_neg (by omega),
    if_neg (by omega), if_neg (by omega), if_pos (by omega)]

theorem byteAt_buildResponse_outside (s : State) (a : Nat) (ha : a < 0x100 ∨ 0x12F < a) :
    s.buildResponse.byteAt a = s.byteAt a := by
  rw [byteAt_buildResponse, if_neg (by omega), if_neg (by omega), if_neg (by omega), if_neg (by omega),
    if_neg (by omega), if_neg (by omega), if_neg (by omega)]

/-! ### The statements -/

/-- Settles O37: the frame read off `exec_serReq_result`, the as-sent time as a variable. -/
theorem serReqBuildsRequestFrame : Obligations.SerReqBuildsRequestFrame := by
  refine ⟨decode_encode .serReq, fun s => ⟨fun hl => ?_, fun hl => exec_serReq_short s (lenFits_eq_false hl)⟩⟩
  obtain ⟨ts, m, hsec, hfrac, hb, hx⟩ := exec_serReq_result s hl
  have hzero (n : Nat) (h1 : 1 ≤ n) (h39 : n ≤ 39) : (s.setMem m).byteAt (0x100 + n) = 0 := by
    rw [hb, if_neg (by omega), if_neg (by omega), if_pos (by omega)]
  have hout (a : Nat) (ha : a < 0x100 ∨ 0x12F < a) : (s.setMem m).byteAt a = s.byteAt a := by
    rw [hb, if_neg (by omega), if_neg (by omega), if_neg (by omega)]
  exact ⟨_, hx, hsec, hfrac, hb 0x100, hzero, hb 0x128, hb 0x129, hb 0x12A, hb 0x12B, hb 0x12C, hb 0x12D, hb 0x12E,
    hb 0x12F, hout, rfl⟩

/-- Settles O38: `ParseFrame` field by field. -/
theorem desReqParsesFrame : Obligations.DesReqParsesFrame :=
  ⟨decode_encode .desReq, fun s =>
    ⟨fun hl => exec_desReq_exact s ((lenExact_iff s).2 hl), fun hl => exec_desReq_wrong s (lenExact_eq_false hl)⟩⟩

/-- Settles O40: a failed check, then the two strata. -/
theorem desRespChecksInOrder : Obligations.DesRespChecksInOrder := by
  refine ⟨decode_encode .desResp, fun s => ?_⟩
  intro origin lvm passes
  refine ⟨exec_desResp_refused s, fun ⟨hlen, horg, hver, hmode⟩ hstr => ?_, fun ⟨hlen, horg, hver, hmode⟩ hstr => ?_⟩
  · exact ⟨_, exec_desResp_kiss s hlen horg hver hmode hstr, kissClass_code _ _⟩
  · exact ⟨_, exec_desResp_ok s hlen horg hver hmode hstr, rfl⟩

/-- Settles O41: `kissClass` finds the first entry that holds the code, and acceptance does not look. -/
theorem kissOfDeathClassifiedByFirstValidEntry : Obligations.KissOfDeathClassifiedByFirstValidEntry := by
  intro s hlen horg hver hmode
  refine ⟨fun hstr =>
      ⟨_, exec_desResp_kiss s hlen horg hver hmode hstr, fun i hvalid hcode hfirst => ?_, fun hnone => ?_⟩,
    fun hstr => ⟨_, exec_desResp_ok s hlen horg hver hmode hstr, rfl, fun k => ?_⟩⟩
  · rw [kissClass_of_first i ((KissEntry.holds_iff _ _).2 ⟨hvalid, hcode⟩)
      fun j hj => mt (KissEntry.holds_iff _ _).1 (hfirst j hj), code_ofKissClass]
  · rw [kissClass_of_none fun i => mt (KissEntry.holds_iff _ _).1 (hnone i)]
    rfl
  · rw [exec_desResp_ok { s with kiss := k } hlen horg hver hmode hstr, acceptResponse_setKiss]
    rfl

/-- Settles O42: the two results as variables, so that the frame is `rfl`. -/
theorem desRespComputesOffsetAndDelay : Obligations.DesRespComputesOffsetAndDelay := by
  intro s hlen horg hver hmode hstr t1 t2 t3 t4
  obtain ⟨off, dly, hoff, hdly, hx⟩ := exec_desResp_result s hlen horg hver hmode hstr
  exact ⟨_, hx, hoff, hdly, rfl⟩

/-- Settles O43: the three ranges. -/
theorem offsetAndDelayRanges : Obligations.OffsetAndDelayRanges := by
  intro t1 t2 t3 t4
  obtain ⟨htlo, hthi⟩ := offsetTwice_range t1 t2 t3 t4
  obtain ⟨holo, hohi⟩ := clockOffset_range t1 t2 t3 t4
  exact ⟨htlo, hthi, holo, hohi, roundTripDelay_range t1 t2 t3 t4⟩

/-- Settles O44: the fields read back, and every other byte. -/
theorem serRespBuildsResponseFrame : Obligations.SerRespBuildsResponseFrame := by
  refine ⟨decode_encode .serResp, fun s => ⟨fun hl => ?_, fun hl => exec_serResp_short s (lenFits_eq_false hl)⟩⟩
  obtain ⟨m, hb, ⟨hrefid, horg, hrcv, hxmt⟩, hx⟩ := exec_serResp_result s hl
  have hlvm := (hb 0x100).trans (byteAt_buildResponse s 0x100)
  have hstr := (hb 0x101).trans (byteAt_buildResponse s 0x101)
  exact ⟨_, hx, hlvm, hstr, fun n hn => (hb _).trans (byteAt_buildResponse_zero s n hn), hrefid, horg, hrcv, hxmt,
    fun a ha => (hb a).trans (byteAt_buildResponse_outside s a ha), rfl⟩

/-- Settles O45: the Timestamp parsed is the Timestamp built, so its bytes are the same. -/
theorem responseEchoesTransmitBytes : Obligations.ResponseEchoesTransmitBytes := by
  intro s hlen
  refine ⟨_, exec_desReq_exact s ((lenExact_iff s).2 hlen), rfl, fun u' hopa hfits => ?_⟩
  obtain ⟨m, -, ⟨-, horg, -, -⟩, hx⟩ := exec_serResp_result u' hfits
  have hecho : (u'.setMem m).tsAt 0x118 = s.tsAt 0x128 := horg.trans hopa
  exact ⟨_, hx, rfl, byteAt_eq_of_tsAt_eq hecho⟩

/-- Settles O46: the built response passes every check of `DES_RESP`, and the offset halves `twice`. -/
theorem responseAcceptedEndToEnd : Obligations.ResponseAcceptedEndToEnd := by
  intro s t4 hlen hopx
  obtain ⟨m, hb, ⟨-, horg, hrcv, hxmt⟩, hx⟩ := exec_serResp_result s hlen.ge
  have hlvm : (s.setMem m).byteAt 0x100 = 0x24 := (hb 0x100).trans (byteAt_buildResponse s 0x100)
  have hstr : (s.setMem m).byteAt 0x101 ≠ 0 := by
    rw [hb, byteAt_buildResponse]
    exact hopx
  obtain ⟨off, dly, hoff, -, hy⟩ := exec_desResp_result
    { (s.setMem m).finish .serResp .success with opb := t4 } hlen horg (congrArg (BitVec.extractLsb' 3 3) hlvm)
    (congrArg (BitVec.extractLsb' 0 3) hlvm) hstr
  have hhalf : off.toInt = tquot (offsetTwice 4295000 s.opa s.opb s.opc t4) 2 := by
    rw [← hrcv, ← hxmt]
    exact hoff
  refine ⟨_, _, hx, hy, rfl, horg, hrcv, hxmt, ?_, ?_⟩
  · rw [← tquot_two_pos_iff, ← hhalf]
    rfl
  · rw [← tquot_two_neg_iff, ← hhalf]
    rfl

end Sys2Proof.Machine
end

section
/-! The family `60_exceptions.md`: a failing command writes `STATUS` and `LASTOP` only, and no event stops the block. -/

namespace Sys2Proof.Machine

/-- Every check stands before the first write, so what a failing command leaves is its end alone (R8, R111, R116), and for
`TS_NOW` the sample taken (R26). -/
theorem ExecEffect.eq_of_failed {s t : State} {i : Instr} (h : ExecEffect s i t) (hs : t.status ≠ .success) :
    t = { s with status := t.status, lastop := i.opcode, ht := t.ht, clkReads := t.clkReads } := by
  cases h with
  | failed | clockFailed => rfl
  | _ => exact absurd rfl hs

/-- Settles O20: the two failing effects, and the clock port which only `TS_NOW` samples. -/
theorem failedCommandWritesStatusOnly : Obligations.FailedCommandWritesStatusOnly := by
  intro i s t h hs
  have he := effect_of_exec i s t h
  exact ⟨he.eq_of_failed hs, he.clockPort_eq⟩

/-- Settles O22: every case of `step_cases` names its next state, a legal command by `exec_effect`. -/
theorem everyStepAnswersNextState : Obligations.EveryStepAnswersNextState := by
  intro s
  rcases step_cases s with ⟨-, hx⟩ | ⟨e, es, -, hx⟩
  · exact ⟨_, hx⟩
  rcases hx with ⟨a, -, -, hx⟩ | ⟨w, i, -, -, -, hx⟩ | ⟨a, t, -, -, hx, -⟩ | ⟨c, -, hx⟩ | ⟨b, -, hx⟩
  · exact ⟨_, hx⟩
  · obtain ⟨t, ht, -⟩ := exec_effect i (s.setScript es)
    exact ⟨t, hx.trans ht⟩
  · exact ⟨t, hx⟩
  · exact ⟨_, hx⟩
  · exact ⟨_, hx⟩

end Sys2Proof.Machine
end

section
/-! The family `70_reset_and_hazards.md`: between the host's accesses the block waits. -/

namespace Sys2Proof.Machine

/-- Settles O4: of the cases of `step_cases`, every one but waiting has an event to come. -/
theorem nothingRunsByItself : Obligations.NothingRunsByItself := by
  intro s hs
  rcases step_cases s with ⟨-, hx⟩ | ⟨e, es, hes, -⟩
  · exact hx
  · exact absurd (hes.symm.trans hs) (List.cons_ne_nil e es)

end Sys2Proof.Machine
end
